-- ==== Sys2Proof/Word.lean ====
section
/-!
DEFINITION. The byte, the unit of both links.
-/
namespace Sys2Proof

/-- One byte of a frame (R179, R183). -/
abbrev Byte := BitVec 8

end Sys2Proof
end

