-- ==== Sys2Proof/Config.lean ====
section
/-!
DEFINITION. The one free value of the model: what happens next when several things can.
-/
namespace Sys2Proof

/-- DESIGN CHOICE (log 1), safe: events that come together may be taken in either order (R6, R11, R89, R104, R114),
and the spec does not say how long a due frame waits before it leaves (R166). On an empty command queue the model
picks among what can happen by this free value, applied to a counter in State. No proof can see what it is. -/
opaque Config.idleChoice : Nat → Nat

end Sys2Proof
end

