-- ==== Sys2Proof/Syntax.lean ====
section
/-!
DEFINITION. The commands of the part: one constructor of Instr for each row of opcode_table.json, with the operands
the frames of R179 to R183 carry.
-/
namespace Sys2Proof

/-- Key k of the manual (1 to 88) is the element k - 1. -/
abbrev Key := Fin 88

/-- One of the 112 tracks of the roll, 0 to 111. -/
abbrev Track := Fin 112

/-- One of the four driver boards, 0 to 3. -/
abbrev Board := Fin 4

/-- The two pedals. -/
inductive Pedal where
  | sustain
  | soft
  deriving DecidableEq, Repr

/-- The check of R165 that an inbound Roll Link frame failed, in the order in which they are made. -/
inductive FrameCheck where
  | length
  | crc
  | kind
  | payload
  | backlog
  deriving DecidableEq, Repr

/-- The reason a board FAULT report carries (R145, R183). -/
inductive FaultReason where
  | overcurrent
  | thermal
  | supply
  deriving DecidableEq, Repr

/-- A request's operands: of the length and form that its kind requires (R167 step 2, R180), or not. -/
inductive Form (α : Type) where
  | good (operands : α)
  | bad
  deriving DecidableEq, Repr

/-- The operands of a LOAD after its table: the first index and the entries (R168). -/
structure Load (α : Type) where
  first   : BitVec 16
  entries : List α
  deriving DecidableEq, Repr

/-- A Route entry as encoded (R181). -/
structure RawRoute where
  function  : Byte
  parameter : Byte
  mask      : Byte
  deriving DecidableEq, Repr

/-- One point of a Calibration record as encoded (R181). -/
structure RawPoint where
  intensity : BitVec 16
  width     : BitVec 16
  lead      : BitVec 16
  deriving DecidableEq, Repr

/-- A Calibration record as encoded (R181). -/
structure RawCal where
  p0 : RawPoint
  p1 : RawPoint
  p2 : RawPoint
  p3 : RawPoint
  rl : BitVec 16
  deriving DecidableEq, Repr

/-- A key map of a PROFILE request as encoded: board 0xFF is NONE (R181). -/
structure RawKeyMap where
  board   : Byte
  channel : BitVec 5
  sensor  : Bool
  deriving DecidableEq, Repr

/-- A pedal map of a PROFILE request as encoded (R181). -/
structure RawPedalMap where
  board   : Byte
  channel : BitVec 5
  deriving DecidableEq, Repr

/-- A board entry of a PROFILE request: an absent parameter is unstated (R139, R181). -/
structure RawBoard where
  present       : Bool
  mB            : Option Byte
  holdDuty      : Option Byte
  engageWidth   : Option (BitVec 16)
  pedalHoldDuty : Option Byte
  deriving DecidableEq, Repr

/-- The operands of a PROFILE request (R139, R181). -/
structure RawProfile where
  keys          : Vector RawKeyMap 88
  sustain       : RawPedalMap
  soft          : RawPedalMap
  boards        : Vector RawBoard 4
  mTot          : Option Byte
  holdLimit     : Option Byte
  returnTimeout : Option (BitVec 16)
  returnTime    : Option (BitVec 16)
  deriving DecidableEq, Repr

/-- The operands of a PROBE request (R159, R180). -/
structure RawProbe where
  key       : Byte
  intensity : BitVec 16
  hold      : BitVec 16
  deriving DecidableEq, Repr

/-- The operands of READ QUEUE: the two starting positions (R116, R180). -/
structure QueueAt where
  fire     : Byte
  deferral : Byte
  deriving DecidableEq, Repr

/-- The operands of READ TABLE (R171, R180). -/
structure TableAt where
  table : Byte
  first : BitVec 16
  count : Byte
  deriving DecidableEq, Repr

/-- The commands. `id` is the request id that the response returns (R167). -/
inductive Instr where
  | powerOnReset
  | scanLine (line : BitVec 24) (cells : Vector Byte 128)
  | rollLinkFrameError (check : FrameCheck)
  | unknownRequest (id kind : Byte)
  | profile (id : Byte) (f : Form RawProfile)
  | loadRoute (id : Byte) (f : Form (Load RawRoute))
  | loadDetect (id : Byte) (f : Form (Load Byte))
  | loadShading (id : Byte) (f : Form (Load (BitVec 16)))
  | loadCurve (id : Byte) (f : Form (Load (BitVec 16)))
  | loadVoicing (id : Byte) (f : Form (Load (BitVec 16)))
  | loadCalibration (id : Byte) (f : Form (Load RawCal))
  | loadTiming (id : Byte) (f : Form (Load (BitVec 32)))
  | loadAdaptParam (id : Byte) (f : Form (Load (BitVec 16)))
  | maskSet (id : Byte) (f : Form (List Byte))
  | maskClear (id : Byte) (f : Form (List Byte))
  | start (id : Byte) (f : Form Unit)
  | stop (id : Byte) (f : Form Unit)
  | pause (id : Byte) (f : Form Unit)
  | pausePointReached
  | resume (id : Byte) (f : Form Unit)
  | setCue (id : Byte) (f : Form (BitVec 24))
  | clearCue (id : Byte) (f : Form (BitVec 24))
  | clearCueAll (id : Byte) (f : Form Unit)
  | timebaseFree (id : Byte) (f : Form Unit)
  | timebaseLine (id : Byte) (f : Form Unit)
  | loopOn (id : Byte) (f : Form Unit)
  | loopOff (id : Byte) (f : Form Unit)
  | pedalAssert (id : Byte) (f : Form Pedal)
  | pedalDeassert (id : Byte) (f : Form Pedal)
  | pedalInhibit (id : Byte) (f : Form Pedal)
  | pedalUninhibit (id : Byte) (f : Form Pedal)
  | probe (id : Byte) (f : Form RawProbe)
  | adaptOn (id : Byte) (f : Form Unit)
  | adaptOff (id : Byte) (f : Form Unit)
  | adaptReset (id : Byte) (f : Form Byte)
  | adaptResetAll (id : Byte) (f : Form Unit)
  | adaptThaw (id : Byte) (f : Form Byte)
  | boardEnable (id : Byte) (f : Form Byte)
  | boardDisable (id : Byte) (f : Form Byte)
  | readStatus (id : Byte) (f : Form Unit)
  | readKey (id : Byte) (f : Form Byte)
  | readKeys (id : Byte) (f : Form Unit)
  | readRegulators (id : Byte) (f : Form Unit)
  | readPedals (id : Byte) (f : Form Unit)
  | readBoards (id : Byte) (f : Form Unit)
  | readLoop (id : Byte) (f : Form Unit)
  | readQueue (id : Byte) (f : Form QueueAt)
  | readCounters (id : Byte) (f : Form Bool)
  | readTable (id : Byte) (f : Form TableAt)
  | readProbe (id : Byte) (f : Form Unit)
  | clear (id : Byte) (f : Form (BitVec 16))
  | notices (id : Byte) (f : Form (BitVec 16))
  | resetPerformance (id : Byte) (f : Form Unit)
  | resetFull (id : Byte) (f : Form Unit)
  | resetFullEffect
  | responseSend
  | noticeSend
  | lossTimeout
  | dispatch
  | pulseEnd (key : Key)
  | holdLimit (key : Key)
  | returnTimer (key : Key)
  | engageEnd (pedal : Pedal)
  | strikeReport (board : BitVec 4) (channel : Byte) (measured : BitVec 16)
  | restReport (board : BitVec 4) (channel : Byte)
  | faultReport (board : BitVec 4) (reason : FaultReason)
  | strayReport
  deriving DecidableEq, Repr

end Sys2Proof
end

