-- ==== Sys2Proof/Decode.lean ====
section
/-!
DEFINITION. Frames and commands: the byte order, the CRC, the assembly of Roll Link and Action Link frames from bytes
(R165, R179, R183), the request layouts (R180, R181), and decodeTableWord.
-/
namespace Sys2Proof

/-! ### Byte order and CRC (R179) -/

/-- Two bytes, most significant first (R179). -/
def be2 (a b : Byte) : BitVec 16 := a ++ b

/-- Three bytes, most significant first (R179). -/
def be3 (a b c : Byte) : BitVec 24 := a ++ b ++ c

/-- Four bytes, most significant first (R179). -/
def be4 (a b c d : Byte) : BitVec 32 := a ++ b ++ c ++ d

/-- The low k bytes of n, most significant first (R179). -/
def beBytes (k n : Nat) : List Byte :=
  (List.range k).map fun i => BitVec.ofNat 8 (n / 256 ^ (k - 1 - i))

/-- One data bit into the CRC register (R179). -/
def crcBit (reg : BitVec 16) (bit : Bool) : BitVec 16 :=
  if reg.getLsbD 15 != bit then (reg <<< 1) ^^^ 0x1021#16 else reg <<< 1

/-- One byte into the CRC register, most significant bit first (R179). -/
def crcByte (reg : BitVec 16) (b : Byte) : BitVec 16 :=
  [7, 6, 5, 4, 3, 2, 1, 0].foldl (fun r i => crcBit r (b.getLsbD i)) reg

/-- The CRC of a frame's bytes: from 0xFFFF, no inversion (R179). -/
def crc16 (bytes : List Byte) : BitVec 16 := bytes.foldl crcByte 0xFFFF#16

/-- The CRC as it is sent, high byte first (R179). -/
def crcBytes (bytes : List Byte) : List Byte := beBytes 2 (crc16 bytes).toNat

/-! ### The operands of requests (R180, R181) -/

/-- A request without operands. -/
def parseNone : List Byte → Form Unit
  | [] => .good ()
  | _ => .bad

/-- A request with one operand byte. -/
def parseByte : List Byte → Form Byte
  | [a] => .good a
  | _ => .bad

/-- A line number, three bytes. -/
def parseLine : List Byte → Form (BitVec 24)
  | [a, b, c] => .good (be3 a b c)
  | _ => .bad

/-- The line number of CLEAR_CUE ALL must be 0 (R180). -/
def parseZeroLine : List Byte → Form Unit
  | [0, 0, 0] => .good ()
  | _ => .bad

/-- The key byte of ADAPT ON, OFF and RESET ALL must be 0 (R180). -/
def parseZeroByte : List Byte → Form Unit
  | [0] => .good ()
  | _ => .bad

/-- A flag set: 16 bits, of which bit 15 must be 0 (R180). -/
def parseFlagSet : List Byte → Form (BitVec 16)
  | [a, b] => if (be2 a b).getLsbD 15 then .bad else .good (be2 a b)
  | _ => .bad

/-- A pedal byte: 0 SUSTAIN, 1 SOFT (R180). -/
def parsePedal (p : Byte) : Form Pedal :=
  match p.toNat with
  | 0 => .good .sustain
  | 1 => .good .soft
  | _ => .bad

/-- A MASK list: its count, 0 to 112, and that many track bytes (R180). -/
def parseTracks : List Byte → Form (List Byte)
  | n :: tracks => if n.toNat ≤ 112 ∧ tracks.length = n.toNat then .good tracks else .bad
  | [] => .bad

/-- Cut bytes into chunks of `size`; none unless they come out even. `fuel` bounds the number of chunks. -/
def chunks (size : Nat) : Nat → List Byte → Option (List (List Byte))
  | _, [] => some []
  | 0, _ :: _ => none
  | fuel + 1, bs =>
    if bs.length < size then none else (chunks size fuel (bs.drop size)).map (bs.take size :: ·)

/-- Byte i of a chunk. -/
def byteAt (bs : List Byte) (i : Nat) : Byte := bs.getD i 0

/-- The two bytes at i of a chunk. -/
def wordAt (bs : List Byte) (i : Nat) : BitVec 16 := be2 (byteAt bs i) (byteAt bs (i + 1))

/-- A Route entry: function, parameter, mask (R181). -/
def parseRouteEntry (c : List Byte) : RawRoute := ⟨byteAt c 0, byteAt c 1, byteAt c 2⟩

/-- One point of a Calibration record at byte i: I, W, Lead (R181). -/
def parsePoint (c : List Byte) (i : Nat) : RawPoint := ⟨wordAt c i, wordAt c (i + 2), wordAt c (i + 4)⟩

/-- A Calibration record: the points in turn, then RL (R181). -/
def parseCalEntry (c : List Byte) : RawCal :=
  ⟨parsePoint c 0, parsePoint c 6, parsePoint c 12, parsePoint c 18, wordAt c 24⟩

/-- The entries of a LOAD: its entry bytes must amount to exactly `count` entries (R168). -/
def parseEntries {α : Type} (size : Nat) (entry : List Byte → α) (first : BitVec 16) (count : Byte)
    (bytes : List Byte) : Form (Load α) :=
  match chunks size bytes.length bytes with
  | some cs => if cs.length = count.toNat then .good ⟨first, cs.map entry⟩ else .bad
  | none => .bad

/-- LOAD: table, first index, count, entries. A table code that is none of R181's has no row of its own, and is
carried by LOAD_ROUTE in the bad form: R168 answers it INVALID (log 6). -/
def parseLoad (id : Byte) : List Byte → Instr
  | table :: f1 :: f0 :: count :: bytes =>
    let first := be2 f1 f0
    match table.toNat with
    | 1 => .loadRoute id (parseEntries 3 parseRouteEntry first count bytes)
    | 2 => .loadDetect id (parseEntries 1 (byteAt · 0) first count bytes)
    | 3 => .loadShading id (parseEntries 2 (wordAt · 0) first count bytes)
    | 4 => .loadCurve id (parseEntries 2 (wordAt · 0) first count bytes)
    | 5 => .loadVoicing id (parseEntries 2 (wordAt · 0) first count bytes)
    | 6 => .loadCalibration id (parseEntries 26 parseCalEntry first count bytes)
    | 7 => .loadTiming id
        (parseEntries 4 (fun c => be4 (byteAt c 0) (byteAt c 1) (byteAt c 2) (byteAt c 3)) first count bytes)
    | 8 => .loadAdaptParam id (parseEntries 2 (wordAt · 0) first count bytes)
    | _ => .loadRoute id .bad
  | _ => .loadRoute id .bad

/-- A field of a stated set: present if bit i is set, otherwise its bytes must be 0 (R181). -/
def statedByte (stated : Byte) (i : Nat) (b : Byte) : Option Byte := if stated.getLsbD i then some b else none

/-- The two-byte field of a stated set (R181). -/
def statedWord (stated : Byte) (i : Nat) (w : BitVec 16) : Option (BitVec 16) :=
  if stated.getLsbD i then some w else none

/-- A stated set's higher bits must be 0, and so must the bytes of an unstated field (R181). -/
def statedOk (stated : Byte) (fields : List Nat) : Bool :=
  stated.toNat < 2 ^ fields.length &&
    (List.range fields.length).all fun i => stated.getLsbD i || fields.getD i 0 == 0

/-- The key map at byte 2k (R181). -/
def parseKeyMap (bs : List Byte) (k : Key) : RawKeyMap :=
  ⟨byteAt bs (2 * k.val), (byteAt bs (2 * k.val + 1)).extractLsb' 0 5, (byteAt bs (2 * k.val + 1)).getLsbD 7⟩

/-- The two bits between a key's channel and its sensor bit must be 0 (R181). -/
def keyMapOk (bs : List Byte) (k : Nat) : Bool :=
  !(byteAt bs (2 * k + 1)).getLsbD 5 && !(byteAt bs (2 * k + 1)).getLsbD 6

/-- The pedal map at byte i (R181). -/
def parsePedalMap (bs : List Byte) (i : Nat) : RawPedalMap := ⟨byteAt bs i, (byteAt bs (i + 1)).extractLsb' 0 5⟩

/-- A pedal's channel byte has no sensor bit: its top three bits must be 0 (R181). -/
def pedalMapOk (bs : List Byte) (i : Nat) : Bool := (byteAt bs (i + 1)).toNat < 32

/-- The board entry of board b, seven bytes from 180 (R181). -/
def parseBoardEntry (bs : List Byte) (b : Board) : RawBoard :=
  let i := 180 + 7 * b.val
  let stated := byteAt bs (i + 1)
  ⟨(byteAt bs i).getLsbD 0, statedByte stated 0 (byteAt bs (i + 2)), statedByte stated 1 (byteAt bs (i + 3)),
    statedWord stated 2 (wordAt bs (i + 4)), statedByte stated 3 (byteAt bs (i + 6))⟩

/-- The form of a board entry: a present byte of 0 or 1 and a sound stated set (R181). -/
def boardEntryOk (bs : List Byte) (b : Nat) : Bool :=
  let i := 180 + 7 * b
  (byteAt bs i).toNat < 2 &&
    statedOk (byteAt bs (i + 1))
      [(byteAt bs (i + 2)).toNat, (byteAt bs (i + 3)).toNat, (wordAt bs (i + 4)).toNat, (byteAt bs (i + 6)).toNat]

/-- The form of the instrument entry, seven bytes from 208 (R181). -/
def instrumentOk (bs : List Byte) : Bool :=
  statedOk (byteAt bs 208)
    [(byteAt bs 209).toNat, (byteAt bs 210).toNat, (wordAt bs 211).toNat, (wordAt bs 213).toNat]

/-- The PROFILE operands: 215 bytes in the order of R181. -/
def parseProfile (bs : List Byte) : Form RawProfile :=
  if bs.length = 215 ∧ (List.range 88).all (keyMapOk bs) ∧ pedalMapOk bs 176 ∧ pedalMapOk bs 178 ∧
      (List.range 4).all (boardEntryOk bs) ∧ instrumentOk bs then
    let stated := byteAt bs 208
    .good {
      keys := Vector.ofFn (parseKeyMap bs)
      sustain := parsePedalMap bs 176
      soft := parsePedalMap bs 178
      boards := Vector.ofFn (parseBoardEntry bs)
      mTot := statedByte stated 0 (byteAt bs 209)
      holdLimit := statedByte stated 1 (byteAt bs 210)
      returnTimeout := statedWord stated 2 (wordAt bs 211)
      returnTime := statedWord stated 3 (wordAt bs 213) }
  else .bad

/-- MASK: 0 SET, 1 CLEAR; another action has no row of its own and is carried by MASK_SET in the bad form (log 6). -/
def parseMask (id : Byte) : List Byte → Instr
  | action :: ops =>
    match action.toNat with
    | 0 => .maskSet id (parseTracks ops)
    | 1 => .maskClear id (parseTracks ops)
    | _ => .maskSet id .bad
  | [] => .maskSet id .bad

/-- CLEAR_CUE: scope 0 one line, 1 ALL (R180). -/
def parseClearCue (id : Byte) : List Byte → Instr
  | scope :: ops =>
    match scope.toNat with
    | 0 => .clearCue id (parseLine ops)
    | 1 => .clearCueAll id (parseZeroLine ops)
    | _ => .clearCue id .bad
  | [] => .clearCue id .bad

/-- TIMEBASE: 0 FREE, 1 LINE (R180). -/
def parseTimebase (id : Byte) : List Byte → Instr
  | base :: ops =>
    match base.toNat with
    | 0 => .timebaseFree id (parseNone ops)
    | 1 => .timebaseLine id (parseNone ops)
    | _ => .timebaseFree id .bad
  | [] => .timebaseFree id .bad

/-- LOOP: 0 OFF, 1 ON (R180). -/
def parseLoop (id : Byte) : List Byte → Instr
  | setting :: ops =>
    match setting.toNat with
    | 0 => .loopOff id (parseNone ops)
    | 1 => .loopOn id (parseNone ops)
    | _ => .loopOn id .bad
  | [] => .loopOn id .bad

/-- PEDAL: pedal, then action 0 ASSERT, 1 DEASSERT, 2 INHIBIT, 3 UNINHIBIT (R180). -/
def parsePedalRequest (id : Byte) : List Byte → Instr
  | [pedal, action] =>
    match action.toNat with
    | 0 => .pedalAssert id (parsePedal pedal)
    | 1 => .pedalDeassert id (parsePedal pedal)
    | 2 => .pedalInhibit id (parsePedal pedal)
    | 3 => .pedalUninhibit id (parsePedal pedal)
    | _ => .pedalAssert id .bad
  | _ => .pedalAssert id .bad

/-- PROBE: key, intensity, hold (R180). -/
def parseProbe : List Byte → Form RawProbe
  | [k, i1, i0, h1, h0] => .good ⟨k, be2 i1 i0, be2 h1 h0⟩
  | _ => .bad

/-- ADAPT: 0 ON, 1 OFF, 2 RESET key, 3 RESET ALL, 4 THAW key (R180). -/
def parseAdapt (id : Byte) : List Byte → Instr
  | action :: ops =>
    match action.toNat with
    | 0 => .adaptOn id (parseZeroByte ops)
    | 1 => .adaptOff id (parseZeroByte ops)
    | 2 => .adaptReset id (parseByte ops)
    | 3 => .adaptResetAll id (parseZeroByte ops)
    | 4 => .adaptThaw id (parseByte ops)
    | _ => .adaptOn id .bad
  | [] => .adaptOn id .bad

/-- BOARD: board, then action 0 ENABLE, 1 DISABLE (R180). -/
def parseBoard (id : Byte) : List Byte → Instr
  | [board, action] =>
    match action.toNat with
    | 0 => .boardEnable id (.good board)
    | 1 => .boardDisable id (.good board)
    | _ => .boardEnable id .bad
  | _ => .boardEnable id .bad

/-- The operands of READ QUEUE. -/
def parseQueueAt : List Byte → Form QueueAt
  | [a, b] => .good ⟨a, b⟩
  | _ => .bad

/-- The clear option of READ COUNTERS: 0 no, 1 yes. -/
def parseClearOption : List Byte → Form Bool
  | [0] => .good false
  | [1] => .good true
  | _ => .bad

/-- The operands of READ TABLE: the count is 1 to 255. -/
def parseTableAt : List Byte → Form TableAt
  | [t, f1, f0, count] => if count = 0 then .bad else .good ⟨t, be2 f1 f0, count⟩
  | _ => .bad

/-- READ: the object, then its operands; an object not listed is answered INVALID and is carried by READ_STATUS in the
bad form (R170, log 6). -/
def parseRead (id : Byte) : List Byte → Instr
  | object :: ops =>
    match object.toNat with
    | 0 => .readStatus id (parseNone ops)
    | 1 => .readKey id (parseByte ops)
    | 2 => .readKeys id (parseNone ops)
    | 3 => .readRegulators id (parseNone ops)
    | 4 => .readPedals id (parseNone ops)
    | 5 => .readBoards id (parseNone ops)
    | 6 => .readLoop id (parseNone ops)
    | 7 => .readQueue id (parseQueueAt ops)
    | 8 => .readCounters id (parseClearOption ops)
    | 9 => .readTable id (parseTableAt ops)
    | 10 => .readProbe id (parseNone ops)
    | _ => .readStatus id .bad
  | [] => .readStatus id .bad

/-- RESET: 0 PERFORMANCE, 1 FULL; any other operand is INVALID (R176). -/
def parseReset (id : Byte) : List Byte → Instr
  | scope :: ops =>
    match scope.toNat with
    | 0 => .resetPerformance id (parseNone ops)
    | 1 => .resetFull id (parseNone ops)
    | _ => .resetPerformance id .bad
  | [] => .resetPerformance id .bad

/-- A REQUEST payload after its id: the kind and its operands (R180). -/
def parseKind (id kind : Byte) (ops : List Byte) : Instr :=
  match kind.toNat with
  | 0x01 => .profile id (parseProfile ops)
  | 0x02 => parseLoad id ops
  | 0x03 => parseMask id ops
  | 0x04 => .start id (parseNone ops)
  | 0x05 => .stop id (parseNone ops)
  | 0x06 => .pause id (parseNone ops)
  | 0x07 => .resume id (parseNone ops)
  | 0x08 => .setCue id (parseLine ops)
  | 0x09 => parseClearCue id ops
  | 0x0A => parseTimebase id ops
  | 0x0B => parseLoop id ops
  | 0x0C => parsePedalRequest id ops
  | 0x0D => .probe id (parseProbe ops)
  | 0x0E => parseAdapt id ops
  | 0x0F => parseBoard id ops
  | 0x10 => parseRead id ops
  | 0x11 => .clear id (parseFlagSet ops)
  | 0x12 => .notices id (parseFlagSet ops)
  | 0x13 => parseReset id ops
  | _ => .unknownRequest id kind

/-! ### Roll Link frames (R165, R179) -/

/-- The SYNC byte of the Roll Link. -/
def rollSync : Byte := 0xA5

/-- A SCAN payload: the line number, then the samples in cell order (R179). -/
def parseScan (payload : List Byte) : Instr :=
  .scanLine (be3 (byteAt payload 0) (byteAt payload 1) (byteAt payload 2))
    (Vector.ofFn fun (i : Fin 128) => byteAt payload (3 + i.val))

/-- The checks of R165 on a complete frame with a sound LENGTH, in their order; `body` is KIND, LENGTH and payload. -/
def checkRollFrame (kind : Byte) (payload crc body : List Byte) : Instr :=
  if crcBytes body ≠ crc then .rollLinkFrameError .crc
  else if kind = 0x01 then
    if payload.length = 131 then parseScan payload else .rollLinkFrameError .payload
  else if kind = 0x10 then
    match payload with
    | id :: k :: ops => parseKind id k ops
    | _ => .rollLinkFrameError .payload
  else .rollLinkFrameError .kind

/-- What the receive bytes of a link give: nothing complete yet, or a command, with the bytes that stand after the
frame and the bytes that stand after its SYNC (from which the search resumes if the frame fails). -/
inductive Assembled where
  | more
  | frame (c : Instr) (afterFrame afterSync : List Byte)
  deriving DecidableEq, Repr

/-- The bytes after a Roll Link SYNC: KIND, LENGTH, payload, CRC (R165, R179). A LENGTH above 1024 fails at once. -/
def assembleRollBody (rest : List Byte) : Assembled :=
  match rest with
  | kind :: l1 :: l0 :: tail =>
    let len := (be2 l1 l0).toNat
    if 1024 < len then .frame (.rollLinkFrameError .length) rest rest
    else if tail.length < len + 2 then .more
    else
      .frame (checkRollFrame kind (tail.take len) ((tail.drop len).take 2) (rest.take (3 + len)))
        (tail.drop (len + 2)) rest
  | _ => .more

/-- Search for SYNC, skipping other bytes uncounted, then take the frame (R165). -/
def assembleRoll : List Byte → Assembled
  | [] => .more
  | b :: rest => if b = rollSync then assembleRollBody rest else assembleRoll rest

/-! ### Action Link frames (R183) -/

/-- The SYNC byte of the Action Link. -/
def actionSync : Byte := 0x5A

/-- The report a complete frame from a board carries; STRAY_REPORT if its CRC, its kind or a FAULT's reason fails
(R143, R183). -/
def checkActionFrame (head channel p1 p0 : Byte) (crc : List Byte) : Instr :=
  if crcBytes [head, channel, p1, p0] ≠ crc then .strayReport
  else
    let board : BitVec 4 := head.extractLsb' 4 4
    match (head.extractLsb' 0 4).toNat with
    | 8 => .strikeReport board channel (be2 p1 p0)
    | 9 => .restReport board channel
    | 10 =>
      match (be2 p1 p0).toNat with
      | 1 => .faultReport board .overcurrent
      | 2 => .faultReport board .thermal
      | 3 => .faultReport board .supply
      | _ => .strayReport
    | _ => .strayReport

/-- Search for SYNC and take the six bytes after it (R183). -/
def assembleAction : List Byte → Assembled
  | [] => .more
  | b :: rest =>
    if b = actionSync then
      match rest with
      | head :: channel :: p1 :: p0 :: c1 :: c0 :: tail =>
        .frame (checkActionFrame head channel p1 p0 [c1, c0]) tail rest
      | _ => .more
    else assembleAction rest

/-- No row of opcode_table.json gives bits, so no word spells a command. -/
def decodeTableWord (_nbits _w : Nat) : Option Instr := none

end Sys2Proof
end

