-- ==== Sys2Proof/Machine/Types.lean ====
section
/-!
DEFINITION. The names and records of the twelve blocks, as the chapters list them. Enumerations stand in the order of
the rule that defines them: R182 numbers their values in that order.
-/
namespace Sys2Proof.Machine

/-! ### Names -/

/-- The performance states (R1). -/
inductive PerfState where
  | stopped
  | armed
  | playing
  | paused
  | draining
  deriving DecidableEq, Repr

/-- The stop reasons (R1); `ended` is END. -/
inductive StopReason where
  | none
  | request
  | ended
  | lost
  | reset
  deriving DecidableEq, Repr

/-- The time bases (R23). -/
inductive Base where
  | free
  | line
  deriving DecidableEq, Repr

/-- The loop modes (R23). -/
inductive LoopMode where
  | off
  | acquiring
  | tracking
  deriving DecidableEq, Repr

/-- The next-line treatments (R23). -/
inductive Treatment where
  | measure
  | seed
  | reseed
  deriving DecidableEq, Repr

/-- The halves of the keyboard. -/
inductive Half where
  | bass
  | treble
  deriving DecidableEq, Repr

/-- The bits of an expression channel (R47). -/
inductive ExprBit where
  | int1
  | int2
  | int4
  | slow
  | fast
  | accent
  deriving DecidableEq, Repr

/-- The rate selectors of a regulator (R55, R56). -/
inductive RateSel where
  | base
  | slow
  | fast
  deriving DecidableEq, Repr

/-- The functions of a track (R47). -/
inductive RouteFn where
  | unused
  | note (k : Key)
  | pedal (p : Pedal)
  | expr (h : Half) (b : ExprBit)
  | endMark
  | cue
  deriving DecidableEq, Repr

/-- The origins of a tag (R117). -/
inductive Origin where
  | roll
  | probe
  deriving DecidableEq, Repr

/-- The phases of a key (R117). -/
inductive KeyPhase where
  | resting
  | deferred
  | striking
  | held
  | releasing
  | offline
  deriving DecidableEq, Repr

/-- The phases of a pedal (R86). -/
inductive PedalPhase where
  | up
  | engaging
  | down
  deriving DecidableEq, Repr

/-- The kinds of a return timer (R117). -/
inductive TimerKind where
  | timeout
  | fixed
  deriving DecidableEq, Repr

/-- The adapt states of a key (R151). -/
inductive AdaptState where
  | active
  | frozen
  deriving DecidableEq, Repr

/-- The observed and snapshot positions of a key (R151). -/
inductive Position where
  | up
  | down
  deriving DecidableEq, Repr

/-- Why a board is disabled (R138). -/
inductive DisableReason where
  | noProfile
  | absent
  | request
  | fault
  deriving DecidableEq, Repr

/-- The service state of a board (R138). -/
inductive Service where
  | enabled
  | disabled (r : DisableReason)
  deriving DecidableEq, Repr

/-- A probe's result once it has ended (R158). -/
inductive ProbeResult where
  | measured (m : Nat)
  | none
  deriving DecidableEq, Repr

/-- How a probe ended (R158). -/
inductive EndCause where
  | report
  | rest
  | offline
  | late
  | disable
  | abandoned
  deriving DecidableEq, Repr

/-- The status flags (R172). -/
inductive Flag where
  | lockChange
  | sourceLost
  | endOfRoll
  | cue
  | paused
  | stopped
  | queueFull
  | lateDrop
  | sensorFault
  | boardFault
  | holdExpired
  | touch
  | linkError
  | alignLimit
  | probeDone
  deriving DecidableEq, Repr

/-- The counters (R175). -/
inductive Counter where
  | crcErrors
  | lengthKindErrors
  | staleLines
  | gapEvents
  | idleLines
  | pausedLines
  | afterEndLines
  | queueRefusals
  | lateDrops
  | supersededStrikes
  | offlineDiscards
  | outliers
  | missedStrikes
  | strayReports
  deriving DecidableEq, Repr

/-- The results of requests (R167, coded by R182). -/
inductive Result where
  | ok
  | clamped
  | busy
  | interlock
  | once
  | invalid
  | notReady
  | full
  | unknown
  deriving DecidableEq, Repr

/-! ### Records -/

/-- The identity of an articulation (R117): equal when origin and number are. -/
structure Tag where
  origin : Origin
  number : Nat
  deriving DecidableEq, Repr

/-- Performance Control (R1). -/
structure PerfControl where
  state      : PerfState
  stopReason : StopReason
  cues       : List Nat
  pausePoint : Option Nat
  lossTimer  : Option Nat
  deriving DecidableEq, Repr

/-- The lock loop record (R23). -/
structure LoopRec where
  mode      : LoopMode
  locked    : Bool
  pEst      : Nat
  tLoop     : Nat
  goodRun   : Nat
  badRun    : Nat
  treatment : Treatment
  lastError : Int
  deriving DecidableEq, Repr

/-- The Line Clock (R19 to R23). -/
structure LineClock where
  actionTime  : Nat
  pausedTotal : Nat
  timing      : Vector Nat 9
  base        : Base
  switch      : Option Base
  loop        : LoopRec
  deriving DecidableEq, Repr

/-- An accepted line and its line time (R35). -/
structure Stamp where
  line : Nat
  time : Nat
  deriving DecidableEq, Repr

/-- Roll Intake (R35); the history stands oldest first. -/
structure RollIntake where
  last    : Option Nat
  history : List Stamp
  deriving DecidableEq, Repr

/-- The detector of a track (R44); true is OPEN. -/
structure Detector where
  raw      : Bool
  run      : Nat
  runFirst : Option Nat
  eff      : Bool
  openLine : Option Nat
  maskLast : Bool
  deriving DecidableEq, Repr

/-- A Route Table entry (R47). -/
structure RouteEntry where
  function : RouteFn
  mask     : Bool
  deriving DecidableEq, Repr

/-- The Track Reader (R39, R41, R44, R47, R53). A route load takes effect at the next START (R48): `route` is the Route Table
as held, which READ TABLE, MASK and loads see, and `inForce` the functions through which the lines are read. -/
structure TrackReader where
  detect    : Vector Nat 8
  shift     : Int
  upRun     : Nat
  downRun   : Nat
  detectors : Vector Detector 112
  route     : Vector RouteEntry 112
  inForce   : Vector RouteFn 112
  rollMarks : Nat
  deriving DecidableEq, Repr

/-- A regulator (R55). -/
structure Regulator where
  level     : Nat
  target    : Nat
  code      : Nat
  rate      : RateSel
  rateValue : Nat
  accent    : Bool
  deriving DecidableEq, Repr

/-- The Expression Unit (R55, R60, R63, R65). -/
structure Expression where
  bass    : Regulator
  treble  : Regulator
  shading : Vector Nat 22
  curve   : Vector Nat 256
  voicing : Vector Int 88
  deriving DecidableEq, Repr

/-- A point of a calibration record (R71). -/
structure CalPoint where
  intensity : Nat
  width     : Nat
  lead      : Nat
  deriving DecidableEq, Repr

/-- A calibration record (R71). -/
structure CalRec where
  p0 : CalPoint
  p1 : CalPoint
  p2 : CalPoint
  p3 : CalPoint
  rl : Nat
  deriving DecidableEq, Repr

/-- What a strike is driven with (R79, R109). -/
structure StrikeVals where
  intensity : Nat
  width     : Nat
  leadEff   : Nat
  cUsed     : Int
  deriving DecidableEq, Repr

/-- A last-strike note (R73). -/
structure LastStrike where
  tag       : Tag
  intensity : Nat
  width     : Nat
  leadEff   : Nat
  fire      : Nat
  deriving DecidableEq, Repr

/-- The Strike Computer (R71, R73). -/
structure StrikeComputer where
  calib     : Vector CalRec 88
  lastNotes : Vector (Option LastStrike) 88
  deriving DecidableEq, Repr

/-- A last-down note (R86). -/
structure LastDown where
  tag  : Tag
  fire : Nat
  deriving DecidableEq, Repr

/-- A Pedal record (R86). The roll-pedal memory is memSet with its saved tag memTag. -/
structure PedalRec where
  roll      : Bool
  rollTag   : Option Tag
  manual    : Bool
  inhibit   : Bool
  memSet    : Bool
  memTag    : Option Tag
  phase     : PedalPhase
  relWait   : Bool
  engageEnd : Option Nat
  lastDown  : Option LastDown
  owed      : Option Tag
  refused   : Option Tag
  deriving DecidableEq, Repr

/-- The Pedal Unit (R86). -/
structure PedalUnit where
  sustain : PedalRec
  soft    : PedalRec
  deriving DecidableEq, Repr

/-- The kinds of fire record with their targets and values (R99). -/
inductive FireKind where
  | strike (k : Key) (v : StrikeVals)
  | release (k : Key)
  | pedalDown (p : Pedal)
  | pedalUp (p : Pedal)
  deriving DecidableEq, Repr

/-- A fire record (R99). -/
structure FireRecord where
  kind : FireKind
  tag  : Tag
  fire : Nat
  deriving DecidableEq, Repr

/-- A strike on its way to a key, and a pending strike (R109, R117). -/
structure Strike where
  tag     : Tag
  vals    : StrikeVals
  fire    : Nat
  relWait : Bool
  deriving DecidableEq, Repr

/-- A Deferral List entry (R109). -/
structure DeferralEntry where
  key    : Key
  strike : Strike
  deriving DecidableEq, Repr

/-- The Scheduler (R99, R106, R109); the board counts are in the Board records. -/
structure Scheduler where
  queue    : List FireRecord
  owed     : Nat
  deferral : List DeferralEntry
  total    : Nat
  deriving DecidableEq, Repr

/-- A Key record (R117, R151). -/
structure KeyRec where
  phase       : KeyPhase
  current     : Option Tag
  pulseSent   : Bool
  relWait     : Bool
  expLead     : Option Nat
  pending     : Option Strike
  owed        : Option Tag
  refused     : Option Tag
  pulseEnd    : Option Nat
  holdLimit   : Option Nat
  returnTimer : Option (Nat × TimerKind)
  missedRest  : Nat
  faultFlag   : Bool
  correction  : Int
  adapt       : AdaptState
  outlierRun  : Nat
  missedRun   : Nat
  strikeSeen  : Bool
  cutShort    : Bool
  observed    : Position
  snapshot    : Position
  deriving DecidableEq, Repr

/-- The parameters of a Board record, absent until a profile is written (R138). -/
structure BoardParams where
  mB            : Nat
  holdDuty      : Nat
  engageWidth   : Nat
  pedalHoldDuty : Nat
  deriving DecidableEq, Repr

/-- A Board record (R138). -/
structure BoardRec where
  present     : Bool
  service     : Service
  faultReason : Option FaultReason
  inFlight    : Nat
  params      : Option BoardParams
  deriving DecidableEq, Repr

/-- A key map of the profile (R139); board none is NONE. -/
structure KeyMap where
  board   : Option Board
  channel : Nat
  sensor  : Bool
  deriving DecidableEq, Repr

/-- A pedal map of the profile (R139). -/
structure PedalMap where
  board   : Option Board
  channel : Nat
  deriving DecidableEq, Repr

/-- The Instrument Profile (R139), less the board entries, which the Board records hold. HoldLimit is in seconds,
ReturnTimeout and ReturnTime in milliseconds. -/
structure Profile where
  keys          : Vector KeyMap 88
  sustain       : PedalMap
  soft          : PedalMap
  mTot          : Nat
  holdLimit     : Nat
  returnTimeout : Nat
  returnTime    : Nat
  deriving DecidableEq, Repr

/-- The Action Port (R138, R139). -/
structure ActionPort where
  boards  : Vector BoardRec 4
  profile : Option Profile
  deriving DecidableEq, Repr

/-- The probe record (R158). -/
structure ProbeRec where
  busy      : Bool
  serial    : Nat
  key       : Key
  intensity : Nat
  hold      : Nat
  width     : Nat
  leadEff   : Nat
  cUsed     : Int
  fire      : Nat
  release   : Nat
  result    : Option ProbeResult
  endCause  : Option EndCause
  error     : Option Int
  corrAfter : Option Int
  deriving DecidableEq, Repr

/-- The Calibration Unit's own state (R152); globalAdapt true is ON. -/
structure Calibration where
  globalAdapt : Bool
  adaptParam  : Vector Nat 2
  serial      : Nat
  probe       : Option ProbeRec
  deriving DecidableEq, Repr

/-- An outbound Roll Link frame that is due (R166); a notice's contents are formed when it leaves (R173). -/
inductive OutFrame where
  | response (id : Byte) (result : Result) (data : List Byte)
  | notice
  deriving DecidableEq, Repr

/-- A frame that has left on the Roll Link (R173, R182). -/
inductive SentFrame where
  | response (id : Byte) (result : Result) (data : List Byte)
  | notice (flags : BitVec 16) (state : PerfState) (reason : StopReason) (time : Nat)
  deriving DecidableEq, Repr

/-- A drive command's kind and parameter (R142). -/
inductive DriveAction where
  | pulse (width : Nat)
  | hold (duty : Nat)
  | off
  deriving DecidableEq, Repr

/-- A drive command addressed to a channel of a board (R142). -/
structure DriveCmd where
  board   : Board
  channel : Nat
  action  : DriveAction
  deriving DecidableEq, Repr

/-- How far a RESET FULL has gone (R177): none, its response not yet left, its response left. -/
inductive FullReset where
  | none
  | responding
  | ready
  deriving DecidableEq, Repr

/-- The Management Unit (R166, R172, R175, R177). -/
structure Management where
  flags     : BitVec 16
  enables   : BitVec 16
  counters  : Vector Nat 14
  outbound  : List OutFrame
  fullReset : FullReset
  waiting   : List Instr
  deriving DecidableEq, Repr

/-- The two links: the bytes received and not yet resolved into a frame (R165, R183); and, the MODEL's own, what has
left the part, oldest first (log 4), and the counter of the idle choice (log 1). -/
structure Links where
  rollRx    : List Byte
  actionRx  : List Byte
  sentRoll  : List SentFrame
  sentDrive : List DriveCmd
  idleCount : Nat
  deriving DecidableEq, Repr

end Sys2Proof.Machine
end

