-- ==== Sys2Proof/Machine/Defaults.lean ====
section
/-!
DEFINITION. The values the chapters give for power-on reset and RESET FULL: the default tables and records.
-/
namespace Sys2Proof.Machine

/-- The Timing table's defaults (R21). -/
def defaultTiming : Vector Nat 9 := #v[1000, 200000, 500, 40, 60000, 50000, 40000, 30000, 0]

/-- The Detect table's defaults (R39). -/
def defaultDetect : Vector Nat 8 := #v[8, 160, 96, 2, 1, 32, 48, 127]

/-- The Shading table's defaults (R60): targets c * 146 for both halves, then the parameters. -/
def defaultShading : Vector Nat 22 :=
  #v[0, 146, 292, 438, 584, 730, 876, 1022, 0, 146, 292, 438, 584, 730, 876, 1022, 64, 2, 8, 160, 44, 192]

/-- The default Dynamics Curve (R63): floor(i * 1000 / 255). -/
def defaultCurve : Vector Nat 256 := Vector.ofFn fun i => i.val * 1000 / 255

/-- The default Voicing table (R65). -/
def defaultVoicing : Vector Int 88 := Vector.replicate 88 0

/-- The default calibration record (R71). -/
def defaultCalRec : CalRec :=
  ⟨⟨100, 2000, 30000⟩, ⟨350, 4500, 20000⟩, ⟨650, 8000, 14000⟩, ⟨1000, 12000, 10000⟩, 8000⟩

/-- The AdaptParam table's defaults (R152). -/
def defaultAdaptParam : Vector Nat 2 := #v[12000, 4]

/-- The lock loop after reset (R23). -/
def defaultLoop : LoopRec :=
  { mode := .off, locked := false, pEst := 256000, tLoop := 0, goodRun := 0, badRun := 0, treatment := .seed,
    lastError := 0 }

/-- A detector after reset (R44). -/
def closedDetector : Detector :=
  { raw := false, run := 0, runFirst := none, eff := false, openLine := none, maskLast := false }

/-- A regulator as START and the resets leave it, with RateBase as given (R55). -/
def restRegulator (rateBase : Nat) : Regulator :=
  { level := 0, target := 0, code := 0, rate := .base, rateValue := rateBase, accent := false }

/-- A Pedal record after reset (R86). -/
def defaultPedal : PedalRec :=
  { roll := false, rollTag := none, manual := false, inhibit := false, memSet := false, memTag := none, phase := .up,
    relWait := false, engageEnd := none, lastDown := none, owed := none, refused := none }

/-- A Key record after reset (R118, R151). -/
def defaultKey : KeyRec :=
  { phase := .offline, current := none, pulseSent := false, relWait := false, expLead := none, pending := none,
    owed := none, refused := none, pulseEnd := none, holdLimit := none, returnTimer := none, missedRest := 0,
    faultFlag := false, correction := 0, adapt := .active, outlierRun := 0, missedRun := 0, strikeSeen := false,
    cutShort := false, observed := .up, snapshot := .up }

/-- A Board record after reset (R138). -/
def defaultBoard : BoardRec :=
  { present := false, service := .disabled .noProfile, faultReason := none, inFlight := 0, params := none }

end Sys2Proof.Machine
end

