-- ==== Sys2Proof/Machine/State.lean ====
section
/-!
DEFINITION. The state of the part, block by block, its reset value, and the reasons a step can stop: none.
-/
namespace Sys2Proof.Machine

/-- The part: its twelve blocks (00_scope.md, "Block overview"), its two links, and the queue of the commands that are
waiting, first in, first out. Roll Intake's frame checks are in `link`. -/
structure State where
  perf    : PerfControl
  clock   : LineClock
  intake  : RollIntake
  reader  : TrackReader
  expr    : Expression
  strike  : StrikeComputer
  pedals  : PedalUnit
  sched   : Scheduler
  keys    : Vector KeyRec 88
  port    : ActionPort
  calib   : Calibration
  mgmt    : Management
  link    : Links
  pending : List Instr
  deriving DecidableEq, Repr

/-- The spec stops the part at nothing: no rule names a fault of the machine, so there is no way to raise one. Safe. -/
inductive Fault where
  deriving DecidableEq, Repr

/-- The reasons to refuse a command. -/
inductive Refusal where
  /-- Raised by exec's arm of a command that has no meaning yet; no arm is left so. Safe: the model stops. -/
  | notModelled (mnemonic : String)
  deriving DecidableEq, Repr

/-- The part after power-on reset (R178, and each chapter's reset values). -/
def State.reset : State where
  perf := { state := .stopped, stopReason := .reset, cues := [], pausePoint := none, lossTimer := none }
  clock := { actionTime := 0, pausedTotal := 0, timing := defaultTiming, base := .free, switch := none,
             loop := defaultLoop }
  intake := { last := none, history := [] }
  reader := { detect := defaultDetect, shift := 0, upRun := 0, downRun := 0,
              detectors := Vector.replicate 112 closedDetector,
              route := Vector.replicate 112 ⟨.unused, false⟩, inForce := Vector.replicate 112 .unused, rollMarks := 0 }
  expr := { bass := restRegulator 64, treble := restRegulator 64, shading := defaultShading, curve := defaultCurve,
            voicing := defaultVoicing }
  strike := { calib := Vector.replicate 88 defaultCalRec, lastNotes := Vector.replicate 88 none }
  pedals := { sustain := defaultPedal, soft := defaultPedal }
  sched := { queue := [], owed := 0, deferral := [], total := 0 }
  keys := Vector.replicate 88 defaultKey
  port := { boards := Vector.replicate 4 defaultBoard, profile := none }
  calib := { globalAdapt := true, adaptParam := defaultAdaptParam, serial := 0, probe := none }
  mgmt := { flags := 0, enables := 0, counters := Vector.replicate 14 0, outbound := [], fullReset := .none,
            waiting := [] }
  link := { rollRx := [], actionRx := [], sentRoll := [], sentDrive := [], idleCount := 0 }
  pending := []

end Sys2Proof.Machine
end

