-- ==== Sys2Proof/Machine/Flags.lean ====
section
/-!
DEFINITION. The status flags and counters of the Management Unit (R172 to R175).
-/
namespace Sys2Proof.Machine

/-- The bit of a flag in a flag set (R180). -/
def Flag.bit : Flag → Nat
  | .lockChange => 0
  | .sourceLost => 1
  | .endOfRoll => 2
  | .cue => 3
  | .paused => 4
  | .stopped => 5
  | .queueFull => 6
  | .lateDrop => 7
  | .sensorFault => 8
  | .boardFault => 9
  | .holdExpired => 10
  | .touch => 11
  | .linkError => 12
  | .alignLimit => 13
  | .probeDone => 14

/-- The flag set of one flag. -/
def Flag.mask (f : Flag) : BitVec 16 := 1#16 <<< f.bit

/-- The place of a counter in READ COUNTERS (R175). -/
def Counter.index : Counter → Fin 14
  | .crcErrors => 0
  | .lengthKindErrors => 1
  | .staleLines => 2
  | .gapEvents => 3
  | .idleLines => 4
  | .pausedLines => 5
  | .afterEndLines => 6
  | .queueRefusals => 7
  | .lateDrops => 8
  | .supersededStrikes => 9
  | .offlineDiscards => 10
  | .outliers => 11
  | .missedStrikes => 12
  | .strayReports => 13

/-- Whether a flag is set (R172). -/
def State.flag (s : State) (f : Flag) : Bool := s.mgmt.flags.getLsbD f.bit

/-- Set a flag; setting one that is set changes nothing (R172). -/
def raise (f : Flag) (s : State) : State := { s with mgmt := { s.mgmt with flags := s.mgmt.flags ||| f.mask } }

/-- Set a flag if a condition holds. -/
def raiseIf (c : Bool) (f : Flag) (s : State) : State := if c then raise f s else s

/-- The value of a counter. -/
def State.counter (s : State) (c : Counter) : Nat := s.mgmt.counters[c.index]

/-- Count n events: a 16-bit count that stops at 65,535 (R175). -/
def countBy (n : Nat) (c : Counter) (s : State) : State :=
  { s with mgmt := { s.mgmt with counters := s.mgmt.counters.set c.index (min 65535 (s.counter c + n)) } }

/-- Count one event (R175). -/
def count (c : Counter) (s : State) : State := countBy 1 c s

/-- Whether a flag has risen from clear (in `old`) to set while its enable is on (R173). -/
def rises (old : BitVec 16) (s : State) : Bool := s.mgmt.flags &&& ~~~old &&& s.mgmt.enables != 0

end Sys2Proof.Machine
end

