-- ==== Sys2Proof/Machine/Ops.lean ====
section
/-!
DEFINITION. The named operations over the state: time, table parameters, records, drive commands, outbound frames.
-/
namespace Sys2Proof.Machine

/-! ### Time (R19, R20) -/

/-- The largest action time and play time, 2^48 - 1 (R19, R78). -/
def maxTime : Nat := 281474976710655

/-- A sum that would pass the largest play time is held at it (R78, R92; DEDUCED for the other sums, log 3). -/
def heldTime (t : Nat) : Nat := min maxTime t

/-- Play time: action time less the paused total (R20). -/
def State.playTime (s : State) : Nat := s.clock.actionTime - s.clock.pausedTotal

/-- The expiry of a timer started now for d microseconds of action time (R19). -/
def State.expiry (s : State) (d : Nat) : Nat := min maxTime (s.clock.actionTime + d)

/-- Whether a timer kept in action time has been reached. -/
def State.reached (s : State) (timer : Option Nat) : Bool := timer.any (· ≤ s.clock.actionTime)

/-- One microsecond: action time advances unless it stands at its maximum, and the paused total grows with it while
the state is PAUSED (R19, R20). -/
def tick (s : State) : State :=
  if s.clock.actionTime < maxTime then
    { s with clock := { s.clock with
        actionTime := s.clock.actionTime + 1
        pausedTotal := if s.perf.state = .paused then s.clock.pausedTotal + 1 else s.clock.pausedTotal } }
  else s

/-! ### Table parameters (R21, R39, R60, R152) -/

/-- P_nom, µs. -/
def State.pNom (s : State) : Nat := s.clock.timing[0]

/-- The play delay D, µs. -/
def State.playDelay (s : State) : Nat := s.clock.timing[1]

/-- LossTimeout in µs; the table holds ms. -/
def State.lossTimeout (s : State) : Nat := s.clock.timing[2] * 1000

/-- LateLimit in µs; the table holds ms. -/
def State.lateLimit (s : State) : Nat := s.clock.timing[3] * 1000

/-- The engage lead of a pedal, µs. -/
def State.engageLead (s : State) : Pedal → Nat
  | .sustain => s.clock.timing[4]
  | .soft => s.clock.timing[5]

/-- The release lead of a pedal, µs. -/
def State.pedalReleaseLead (s : State) : Pedal → Nat
  | .sustain => s.clock.timing[6]
  | .soft => s.clock.timing[7]

/-- The roll-mark pausing option. -/
def State.rollMarkPausing (s : State) : Bool := s.clock.timing[8] == 1

/-- The effective-level boost of an accent (R60). -/
def State.accentBoost (s : State) : Nat := s.expr.shading[19]

/-- The lowest TREBLE key's number (R60). -/
def State.split (s : State) : Nat := s.expr.shading[20]

/-- SoftFactor, in 1/256 (R60). -/
def State.softFactor (s : State) : Nat := s.expr.shading[21]

/-! ### Keys and pedals -/

/-- The keys in ascending order. (Irreducible, so that no unification walks 88 keys.) -/
@[irreducible] def allKeys : List Key := List.ofFn id

/-- The tracks in ascending order. -/
@[irreducible] def allTracks : List Track := List.ofFn id

/-- The boards in ascending order. -/
def allBoards : List Board := List.ofFn id

/-- The pedals, SUSTAIN first. -/
def allPedals : List Pedal := [.sustain, .soft]

/-- The manual's number of a key, 1 to 88. -/
def keyNumber (k : Key) : Nat := k.val + 1

/-- The key of a number, if it lies in 1 to 88. -/
def keyOf? (n : Nat) : Option Key := if h : 1 ≤ n ∧ n ≤ 88 then some ⟨n - 1, by omega⟩ else none

/-- The board of a number, if it lies in 0 to 3. -/
def boardOf? (n : Nat) : Option Board := if h : n < 4 then some ⟨n, h⟩ else none

/-- The record of a key. -/
def State.key (s : State) (k : Key) : KeyRec := s.keys[k]

/-- Replace the record of a key. -/
def setKey (k : Key) (r : KeyRec) (s : State) : State := { s with keys := s.keys.set k r }

/-- Change the record of a key. -/
def updateKey (k : Key) (f : KeyRec → KeyRec) (s : State) : State := setKey k (f (s.key k)) s

/-- Change the record of every key. -/
def mapKeys (f : Key → KeyRec → KeyRec) (s : State) : State :=
  { s with keys := Vector.ofFn fun k => f k (s.key k) }

/-- The record of a pedal. -/
def State.pedal (s : State) : Pedal → PedalRec
  | .sustain => s.pedals.sustain
  | .soft => s.pedals.soft

/-- Replace the record of a pedal. -/
def setPedal (p : Pedal) (r : PedalRec) (s : State) : State :=
  match p with
  | .sustain => { s with pedals := { s.pedals with sustain := r } }
  | .soft => { s with pedals := { s.pedals with soft := r } }

/-- Change the record of a pedal. -/
def updatePedal (p : Pedal) (f : PedalRec → PedalRec) (s : State) : State := setPedal p (f (s.pedal p)) s

/-! ### Boards and the profile -/

/-- The record of a board. -/
def State.board (s : State) (b : Board) : BoardRec := s.port.boards[b]

/-- Change the record of a board. -/
def updateBoard (b : Board) (f : BoardRec → BoardRec) (s : State) : State :=
  { s with port := { s.port with boards := s.port.boards.set b (f (s.board b)) } }

/-- Whether a board is in service (R138). -/
def State.boardEnabled (s : State) (b : Board) : Bool := (s.board b).service = .enabled

/-- A board's M_b; 0 before a profile is written, when no key can be struck (R106). -/
def State.boardLimit (s : State) (b : Board) : Nat := ((s.board b).params.map (·.mB)).getD 0

/-- M_tot; 0 before a profile is written (R106). -/
def State.totalLimit (s : State) : Nat := (s.port.profile.map (·.mTot)).getD 0

/-- Whether the profile marks a key as having a sensor (R139). -/
def State.hasSensor (s : State) (k : Key) : Bool := s.port.profile.any fun p => p.keys[k].sensor

/-- The board and channel of a key; none for NONE or without a profile (R117, R139). -/
def State.keyWire (s : State) (k : Key) : Option (Board × Nat) :=
  s.port.profile.bind fun p => p.keys[k].board.map fun b => (b, p.keys[k].channel)

/-- The pedal map of a profile. -/
def Profile.pedalMap (p : Profile) : Pedal → PedalMap
  | .sustain => p.sustain
  | .soft => p.soft

/-- The board and channel of a pedal; none for NONE or without a profile (R86, R139). That READ PEDALS sends neither for NONE,
though the pedal map still gives a channel, is the model's choice (DESIGN CHOICE, log 8). -/
def State.pedalWire (s : State) (p : Pedal) : Option (Board × Nat) :=
  s.port.profile.bind fun pr => (pr.pedalMap p).board.map fun b => (b, (pr.pedalMap p).channel)

/-- Whether a key stands on a board. -/
def State.keyOnBoard (s : State) (k : Key) (b : Board) : Bool := (s.keyWire k).any (·.1 == b)

/-- Whether a pedal stands on a board. -/
def State.pedalOnBoard (s : State) (p : Pedal) (b : Board) : Bool := (s.pedalWire p).any (·.1 == b)

/-- The key that the profile maps to a channel of a board (R144). -/
def State.keyAt (s : State) (b : Board) (channel : Nat) : Option Key :=
  allKeys.find? fun k => s.keyWire k == some (b, channel)

/-! ### Drive commands (R142) -/

/-- The command for a target's channel; none for a target without one. -/
def driveCmd (wire : Option (Board × Nat)) (a : DriveAction) : Option DriveCmd :=
  wire.map fun w => ⟨w.1, w.2, a⟩

/-- Commands leave at the moment they are issued, in that order (R142). -/
def sendAll (cmds : List DriveCmd) (s : State) : State :=
  { s with link := { s.link with sentDrive := s.link.sentDrive ++ cmds } }

/-- Send a command on a key's channel. -/
def sendKey (k : Key) (a : DriveAction) (s : State) : State := sendAll (driveCmd (s.keyWire k) a).toList s

/-- Send a command on a pedal's channel. -/
def sendPedal (p : Pedal) (a : DriveAction) (s : State) : State := sendAll (driveCmd (s.pedalWire p) a).toList s

/-- OFF for every key that satisfies a condition, in ascending key number (DESIGN CHOICE, log 5). -/
def offKeys (c : Key → KeyRec → Bool) (s : State) : List DriveCmd :=
  allKeys.filterMap fun k => if c k (s.key k) then driveCmd (s.keyWire k) .off else none

/-- OFF for every pedal that satisfies a condition, SUSTAIN first (DESIGN CHOICE, log 5). -/
def offPedals (c : Pedal → PedalRec → Bool) (s : State) : List DriveCmd :=
  allPedals.filterMap fun p => if c p (s.pedal p) then driveCmd (s.pedalWire p) .off else none

/-- A key whose solenoid is being driven (R136, R146). -/
def KeyRec.driven (r : KeyRec) : Bool := r.phase = .striking ∨ r.phase = .held

/-- A pedal whose solenoid is being driven (R98, R146). -/
def PedalRec.driven (r : PedalRec) : Bool := r.phase = .engaging ∨ r.phase = .down

/-! ### Outbound frames (R166) -/

/-- Whether an outbound frame is a response. -/
def OutFrame.isResponse : OutFrame → Bool
  | .response .. => true
  | .notice => false

/-- How many responses are due and have not begun to leave. -/
def State.responsesDue (s : State) : Nat := (s.mgmt.outbound.filter OutFrame.isResponse).length

/-- Put a frame at the end of those due. -/
def pushFrame (f : OutFrame) (s : State) : State :=
  { s with mgmt := { s.mgmt with outbound := s.mgmt.outbound ++ [f] } }

/-- A cause for a notice makes one due unless one is due already (R166). -/
def dueNotice (cause : Bool) (s : State) : State :=
  if cause && !s.mgmt.outbound.contains .notice then pushFrame .notice s else s

/-- A notice that is due and has not begun to leave is withdrawn (R173). -/
def withdrawNotice (s : State) : State :=
  { s with mgmt := { s.mgmt with outbound := s.mgmt.outbound.filter OutFrame.isResponse } }

end Sys2Proof.Machine
end

