-- ==== Sys2Proof/Machine/Operands.lean ====
section
/-!
DEFINITION. The operand forms of requests: the form check, clamping, and the loading of a table (R167, R168).
-/
namespace Sys2Proof.Machine

/-- Clamp to a range (00_scope.md, "Numbers and arithmetic"). -/
def clampNat (lo hi v : Nat) : Nat := max lo (min hi v)

/-- Clamp a signed value to a range. -/
def clampInt (lo hi v : Int) : Int := max lo (min hi v)

/-- A request whose operands fail the form check is answered INVALID and changes nothing (R167 step 2). -/
def onForm {α : Type} (f : Form α) (take : α → State → State × Result) (s : State) : State × Result :=
  match f with
  | .good a => take a s
  | .bad => (s, .invalid)

/-- The answer of a load that is taken: CLAMPED if any value was clamped (R168). -/
def loadResult (clamped : Bool) : Result := if clamped then .clamped else .ok

/-- The loaded entries, each clamped to the range of the index it addresses. -/
def clampEntries {α β : Type} (clamp : Nat → α → β) (l : Load α) : List β :=
  l.entries.mapIdx fun i v => clamp (l.first.toNat + i) v

/-- Whether the load addresses only entries of a table of n (R168); a count of 0 is refused here too. -/
def addresses {α : Type} (n : Nat) (l : Load α) : Bool :=
  0 < l.entries.length && l.first.toNat + l.entries.length ≤ n

/-- The table that a load leaves: the loaded entries in their span, the held ones outside it (R168). -/
def overlay {α : Type} {n : Nat} (held : Vector α n) (first : Nat) (loaded : List α) : Vector α n :=
  Vector.ofFn fun i => if first ≤ i.val then (loaded[i.val - first]?).getD held[i] else held[i]

/-- The range of each Timing entry at step 1 of R22: the pedal leads are clamped to 0..490,000 there. -/
def timingRange : Nat → Nat × Nat
  | 0 => (250, 8000)
  | 1 => (100000, 500000)
  | 2 => (50, 2000)
  | 3 => (0, 100)
  | 8 => (0, 1)
  | _ => (0, 490000)

/-- The range of each Detect entry (R39). -/
def detectRange : Nat → Nat × Nat
  | 0 => (0, 16)
  | 1 => (1, 255)
  | 2 => (0, 254)
  | 3 => (1, 4)
  | 4 => (0, 1)
  | 5 => (8, 255)
  | 6 => (0, 255)
  | _ => (0, 254)

/-- The range of each Shading entry (R60). -/
def shadingRange (i : Nat) : Nat × Nat :=
  if i < 16 then (0, 1023)
  else if i < 19 then (1, 255)
  else if i = 19 then (0, 512)
  else if i = 20 then (2, 88)
  else (128, 256)

/-- The range of each AdaptParam entry (R152). -/
def adaptRange : Nat → Nat × Nat
  | 0 => (1000, 20000)
  | _ => (2, 8)

/-- An unsigned value clamped to the range of its index. -/
def clampBy {w : Nat} (range : Nat → Nat × Nat) (i : Nat) (v : BitVec w) : Nat :=
  clampNat (range i).1 (range i).2 v.toNat

/-- The unsigned entries of a load as given. -/
def rawNats {w : Nat} (l : Load (BitVec w)) : List Nat := l.entries.map BitVec.toNat

/-- A load of unsigned values: what it leaves after clamping, and whether any value was clamped. -/
def clampedLoad {w n : Nat} (range : Nat → Nat × Nat) (held : Vector Nat n) (l : Load (BitVec w)) :
    Vector Nat n × Bool :=
  (overlay held l.first.toNat (clampEntries (clampBy range) l), clampEntries (clampBy range) l != rawNats l)

/-- A point's values clamped to their ranges (R72 step 2). -/
def clampPoint (p : RawPoint) : CalPoint :=
  ⟨clampNat 1 1000 p.intensity.toNat, clampNat 500 25000 p.width.toNat, clampNat 1000 60000 p.lead.toNat⟩

/-- A record's values clamped to their ranges (R72 step 2). -/
def clampCal (r : RawCal) : CalRec :=
  ⟨clampPoint r.p0, clampPoint r.p1, clampPoint r.p2, clampPoint r.p3, clampNat 0 30000 r.rl.toNat⟩

/-- A point as given. -/
def rawPoint (p : RawPoint) : CalPoint := ⟨p.intensity.toNat, p.width.toNat, p.lead.toNat⟩

/-- A record as given. -/
def rawCal (r : RawCal) : CalRec := ⟨rawPoint r.p0, rawPoint r.p1, rawPoint r.p2, rawPoint r.p3, r.rl.toNat⟩

/-- The four intensities rise strictly (R72 step 3). -/
def CalRec.rising (r : CalRec) : Bool :=
  r.p0.intensity < r.p1.intensity && r.p1.intensity < r.p2.intensity && r.p2.intensity < r.p3.intensity

/-- The function of a Route entry; none if R48 calls it INVALID. -/
def routeFn? (r : RawRoute) : Option RouteFn :=
  match r.function.toNat with
  | 0 => if r.parameter = 0 then some .unused else none
  | 1 => (keyOf? r.parameter.toNat).map .note
  | 2 =>
    match r.parameter.toNat with
    | 0 => some (.pedal .sustain)
    | 1 => some (.pedal .soft)
    | _ => none
  | 3 =>
    let half : Option Half := match r.parameter.toNat / 16 with
      | 0 => some .bass
      | 1 => some .treble
      | _ => none
    let bit : Option ExprBit := match r.parameter.toNat % 16 with
      | 0 => some .int1
      | 1 => some .int2
      | 2 => some .int4
      | 3 => some .slow
      | 4 => some .fast
      | 5 => some .accent
      | _ => none
    half.bind fun h => bit.map fun b => .expr h b
  | 4 => if r.parameter = 0 then some .endMark else none
  | 5 => if r.parameter = 0 then some .cue else none
  | _ => none

/-- A Route entry; none if R48 calls it INVALID. -/
def routeEntry? (r : RawRoute) : Option RouteEntry :=
  match routeFn? r, r.mask.toNat with
  | some f, 0 => some ⟨f, false⟩
  | some f, 1 => some ⟨f, true⟩
  | _, _ => none

/-- All entries, if every one is valid. -/
def routeEntries? : List RawRoute → Option (List RouteEntry)
  | [] => some []
  | r :: rs =>
    match routeEntry? r, routeEntries? rs with
    | some e, some es => some (e :: es)
    | _, _ => none

/-- A level channel is routed to NOTE, PEDAL or EXPR (R49). -/
def RouteFn.isLevel : RouteFn → Bool
  | .note _ | .pedal _ | .expr .. => true
  | .unused | .endMark | .cue => false

/-- Whether two tracks hold the same NOTE key, PEDAL, or EXPR half and bit (R48). -/
def routeClash (route : Vector RouteEntry 112) : Bool :=
  allTracks.any fun t => route[t].function.isLevel &&
    allTracks.any fun u => t.val < u.val && route[t].function == route[u].function

/-- The values of a list, none greater than the next (R63, R64). -/
def nondecreasing : List Nat → Bool
  | a :: b :: rest => a ≤ b && nondecreasing (b :: rest)
  | _ => true

end Sys2Proof.Machine
end

