-- ==== Sys2Proof/Machine/KeyOps.lean ====
section
/-!
DEFINITION. The shared operations of the Scheduler, the Key Table and the Calibration Unit on keys: probe ends, rest
notices, slots, the offer to the budget, the Deferral List, the arbiter, strikes and releases reaching a key, and the
dispatch of fire records (R99 to R136, R154 to R162).
-/
namespace Sys2Proof.Machine

/-! ### Probes (R158, R160) -/

/-- Whether a probe is busy. -/
def State.probeBusy (s : State) : Bool := s.calib.probe.any (·.busy)

/-- Whether a tag is that of the busy probe. -/
def State.isBusyProbe (s : State) (tag : Option Tag) : Bool :=
  s.calib.probe.any fun p => p.busy && tag == some ⟨.probe, p.serial⟩

/-- Replace the probe record. -/
def setProbe (p : ProbeRec) (s : State) : State := { s with calib := { s.calib with probe := some p } }

/-- The end of the busy probe: busy cleared, result and cause recorded, PROBE_DONE set (R160). -/
def finishProbe (f : ProbeRec → ProbeRec) (s : State) : State :=
  match s.calib.probe with
  | some p => if p.busy then raise .probeDone (setProbe (f { p with busy := false }) s) else s
  | none => s

/-- The busy probe ends with result NONE (R160). -/
def abandonProbe (cause : EndCause) (s : State) : State :=
  finishProbe (fun p => { p with result := some .none, endCause := some cause }) s

/-- If the tag is the busy probe's, it ends with result NONE (R160). -/
def endProbe (tag : Option Tag) (cause : EndCause) (s : State) : State :=
  if s.isBusyProbe tag then abandonProbe cause s else s

/-! ### Return and rest (R127, R130, R156, R162) -/

/-- The return timer of a key just sent OFF: TIMEOUT with a sensor, FIXED without (R127). -/
def State.returnTimerFor (s : State) (k : Key) : Nat × TimerKind :=
  if s.hasSensor k then (s.expiry ((s.port.profile.map (·.returnTimeout)).getD 0 * 1000), .timeout)
  else (s.expiry ((s.port.profile.map (·.returnTime)).getD 0 * 1000), .fixed)

/-- A key just sent OFF enters RELEASING with its return timer started (R127); s holds the clock and the profile. -/
def KeyRec.releasing (r : KeyRec) (s : State) (k : Key) : KeyRec :=
  { r with phase := .releasing, relWait := false, pulseEnd := none, holdLimit := none,
           returnTimer := some (s.returnTimerFor k) }

/-- OFF is sent and the key enters RELEASING (R124 rule 2, R126). -/
def letGo (k : Key) (s : State) : State := updateKey k (fun r => r.releasing s k) (sendKey k .off s)

/-- A third missed strike or outlier in a row, and every later one, freezes the key (R155, R156). -/
def freeze (third : Bool) (k : Key) (s : State) : State :=
  if third then raise .sensorFault (updateKey k (fun r => { r with adapt := .frozen, faultFlag := true }) s) else s

/-- A missed strike (R156). -/
def missStrike (k : Key) (s : State) : State :=
  let run := min 3 ((s.key k).missedRun + 1)
  freeze (run == 3) k (updateKey k (fun r => { r with missedRun := run }) (count .missedStrikes s))

/-- What a rest notice does to the missed run and to a probe (R156). -/
def restRecord (k : Key) (s : State) : State :=
  let r := s.key k
  match r.current with
  | some ⟨.roll, _⟩ =>
    if r.pulseSent then
      if r.strikeSeen then updateKey k (fun r => { r with missedRun := 0 }) s
      else if r.cutShort then s
      else missStrike k s
    else s
  | some ⟨.probe, n⟩ => endProbe (some ⟨.probe, n⟩) .rest s
  | none => s

/-- What a rest notice does to the observed state and snapshot (R162), and step 2 of R130 after it: pulse sent is
cleared and the expected lead becomes absent. -/
def KeyRec.noticed (r : KeyRec) : KeyRec :=
  { r with observed := if r.pulseSent then .up else r.observed
           snapshot := if r.pulseSent then .up else r.observed
           pulseSent := false, expLead := none }

/-- Steps 1 and 2 of R130: the key is RESTING and the Calibration Unit has its rest notice. -/
def restNotice (k : Key) (s : State) : State :=
  updateKey k KeyRec.noticed
    (restRecord k
      (updateKey k (fun r => { r with phase := .resting, relWait := false, pulseEnd := none, holdLimit := none,
                                      returnTimer := none }) s))

/-! ### The strike budget (R106 to R108) -/

/-- A board has a free slot when its count is below its M_b (R106). -/
def State.boardFree (s : State) (b : Board) : Bool := (s.board b).inFlight < s.boardLimit b

/-- The total has a free slot when its count is below M_tot (R106). -/
def State.totalFree (s : State) : Bool := s.sched.total < s.totalLimit

/-- Whether a key's board has a free slot. -/
def State.keyBoardFree (s : State) (k : Key) : Bool := (s.keyWire k).any fun w => s.boardFree w.1

/-- Take a slot on a key's board and in the total (R107). -/
def takeSlot (k : Key) (s : State) : State :=
  match s.keyWire k with
  | some (b, _) =>
    updateBoard b (fun r => { r with inFlight := r.inFlight + 1 })
      { s with sched := { s.sched with total := s.sched.total + 1 } }
  | none => s

/-- Free the slot of a key: its board's count and the total are decremented (R108). -/
def dropSlot (k : Key) (s : State) : State :=
  match s.keyWire k with
  | some (b, _) =>
    updateBoard b (fun r => { r with inFlight := r.inFlight - 1 })
      { s with sched := { s.sched with total := s.sched.total - 1 } }
  | none => s

/-- A key enters STRIKING (R122); its pending strike stays. -/
def KeyRec.striking (r : KeyRec) (st : Strike) (pulseEnd : Nat) : KeyRec :=
  { r with phase := .striking, pulseEnd := some pulseEnd, current := some st.tag, expLead := some st.vals.leadEff,
           pulseSent := true, relWait := st.relWait, strikeSeen := false, cutShort := false }

/-- A slot is taken, PULSE is sent and the key enters STRIKING (R107 step 2, R112 step 4, R122). -/
def pulseKey (k : Key) (st : Strike) (s : State) : State :=
  updateKey k (fun r => r.striking st (s.expiry st.vals.width)) (sendKey k (.pulse st.vals.width) (takeSlot k s))

/-! ### The Deferral List (R109 to R113) -/

/-- An entry takes its place after those with a fire time at or before its own (R110). -/
def insertEntry (e : DeferralEntry) : List DeferralEntry → List DeferralEntry
  | [] => [e]
  | x :: xs => if x.strike.fire ≤ e.strike.fire then x :: insertEntry e xs else e :: x :: xs

/-- A strike joins the Deferral List and its key becomes DEFERRED (R110). -/
def joinDeferral (k : Key) (st : Strike) (s : State) : State :=
  updateKey k (fun r => { r with phase := .deferred, current := some st.tag })
    { s with sched := { s.sched with deferral := insertEntry ⟨k, st⟩ s.sched.deferral } }

/-- A key's entry is taken off the list; a key has at most one (R109). -/
def removeEntry (k : Key) (s : State) : State :=
  { s with sched := { s.sched with deferral := s.sched.deferral.eraseP (·.key == k) } }

/-- Play time now less the strike's F exceeds LateLimit (R107, R112). -/
def State.late (s : State) (st : Strike) : Bool := s.lateLimit < s.playTime - st.fire

/-- The counting of a late drop (R113); a probe's strike ends its probe. -/
def countLate (st : Strike) (s : State) : State :=
  endProbe (some st.tag) .late (raise .lateDrop (count .lateDrops s))

/-- A strike is offered to the budget (R107): dropped if its lateness is checked and it is late, else struck if a slot
is free, else deferred. -/
def offer (checked : Bool) (k : Key) (st : Strike) (s : State) : State :=
  if checked && s.late st then countLate st s
  else if s.keyBoardFree k && s.totalFree then pulseKey k st s
  else joinDeferral k st s

/-- An entry found late is dropped: its key rests, and a pending strike of the key moves onto the list (R113). -/
def dropEntry (e : DeferralEntry) (s : State) : State :=
  let rested := restNotice e.key (countLate e.strike (removeEntry e.key s))
  match (rested.key e.key).pending with
  | some st => joinDeferral e.key st (updateKey e.key (fun r => { r with pending := none }) rested)
  | none => rested

/-- One pass of the arbiter's steps 1 to 4, and again; fuel bounds the passes (R112). -/
def arbitrate : Nat → State → State
  | 0, s => s
  | fuel + 1, s =>
    if s.totalFree then
      match s.sched.deferral.find? fun e => s.keyBoardFree e.key with
      | none => s
      | some e =>
        if s.late e.strike then arbitrate fuel (dropEntry e s)
        else arbitrate fuel (pulseKey e.key e.strike (removeEntry e.key s))
    else s

/-- The slot arbiter (R112). Each pass takes an entry off the list; a pass may bring one of at most 88 pending strikes
onto it, so the fuel suffices. -/
def runArbiter (s : State) : State := arbitrate (s.sched.deferral.length + 88) s

/-- The arbiter runs when a slot is freed and the state is not PAUSED (R108). -/
def arbiterUnlessPaused (s : State) : State := if s.perf.state = .paused then s else runArbiter s

/-- A key reaches RESTING from RELEASING (R130). -/
def keyRests (k : Key) (s : State) : State :=
  let rested := restNotice k s
  match (rested.key k).pending with
  | some st =>
    if rested.perf.state = .paused then rested
    else offer true k st (updateKey k (fun r => { r with pending := none }) rested)
  | none => rested

/-! ### Strikes and releases reaching a key (R119 to R124) -/

/-- A strike is parked, superseding any earlier pending strike (R120). -/
def park (k : Key) (st : Strike) (s : State) : State :=
  updateKey k (fun r => { r with pending := some { st with relWait := false } })
    (if (s.key k).pending.isSome then count .supersededStrikes s else s)

/-- A strike reaches a key (R119 to R121). -/
def strikeReaches (k : Key) (st : Strike) (s : State) : State :=
  match (s.key k).phase with
  | .resting => offer false k st s
  | .deferred | .striking | .held | .releasing => park k st s
  | .offline => endProbe (some st.tag) .offline (count .offlineDiscards s)

/-- Mark the Deferral List entry of a key (R124 rule 3). -/
def markEntry (k : Key) (s : State) : State :=
  { s with sched := { s.sched with deferral := s.sched.deferral.map fun e =>
      if e.key = k then { e with strike := { e.strike with relWait := true } } else e } }

/-- Mark a key's pending strike (R124 rule 4). -/
def markPending (k : Key) (s : State) : State :=
  updateKey k (fun r => { r with pending := r.pending.map fun st => { st with relWait := true } }) s

/-- Whether a key's Deferral List entry carries a tag. -/
def State.entryTagged (s : State) (k : Key) (tag : Tag) : Bool :=
  s.sched.deferral.any fun e => e.key == k && e.strike.tag == tag

/-- A RELEASE reaches a key: the first rule of R124 that holds decides. -/
def releaseReaches (k : Key) (tag : Tag) (s : State) : State :=
  let r := s.key k
  if r.current = some tag ∧ r.phase = .striking then updateKey k (fun r => { r with relWait := true }) s
  else if r.current = some tag ∧ r.phase = .held then letGo k s
  else if r.phase = .deferred ∧ s.entryTagged k tag then markEntry k s
  else if r.pending.any (·.tag == tag) then markPending k s
  else s

/-- A strike of a fire record (R105). -/
def FireRecord.toStrike (r : FireRecord) (v : StrikeVals) : Strike := ⟨r.tag, v, r.fire, false⟩

end Sys2Proof.Machine
end

