-- ==== Sys2Proof/Machine/PedalOps.lean ====
section
/-!
DEFINITION. The Pedal Unit's shared operations: the commanded state and the driving of the solenoid (R87, R88), and the
effects of pause, resume, the cut and a board's disable on the pedals (R90, R95 to R97).
-/
namespace Sys2Proof.Machine

/-- The commanded state: true is down (R87). A pedal without a board is commanded up. -/
def State.commandedDown (s : State) (p : Pedal) : Bool :=
  (s.pedalWire p).any (fun w => s.boardEnabled w.1) && !(s.pedal p).inhibit && ((s.pedal p).roll || (s.pedal p).manual)

/-- The state the pedal was last driven toward: true is down (the table of R87). -/
def PedalRec.towardDown (r : PedalRec) : Bool :=
  match r.phase with
  | .up => false
  | .engaging => !r.relWait
  | .down => true

/-- The EngageWidth of the pedal's board (R88). -/
def State.engageWidth (s : State) (p : Pedal) : Nat :=
  ((s.pedalWire p).bind fun w => (s.board w.1).params.map (·.engageWidth)).getD 0

/-- The PedalHoldDuty of the pedal's board (R89). -/
def State.pedalHoldDuty (s : State) (p : Pedal) : Nat :=
  ((s.pedalWire p).bind fun w => (s.board w.1).params.map (·.pedalHoldDuty)).getD 0

/-- The commanded state becomes down (R88). -/
def pressPedal (p : Pedal) (s : State) : State :=
  match (s.pedal p).phase with
  | .up =>
    updatePedal p (fun r => { r with phase := .engaging, relWait := false,
                                     engageEnd := some (s.expiry (s.engageWidth p)) })
      (sendPedal p (.pulse (s.engageWidth p)) s)
  | .engaging => updatePedal p (fun r => { r with relWait := false }) s
  | .down => s

/-- The commanded state becomes up (R88). -/
def liftPedal (p : Pedal) (s : State) : State :=
  match (s.pedal p).phase with
  | .up => s
  | .engaging => updatePedal p (fun r => { r with relWait := true }) s
  | .down => updatePedal p (fun r => { r with phase := .up }) (sendPedal p .off s)

/-- Work out the commanded state afresh, and act on a difference from the state the pedal was driven toward (R87). -/
def drivePedal (p : Pedal) (s : State) : State :=
  if s.commandedDown p = (s.pedal p).towardDown then s
  else if s.commandedDown p then pressPedal p s
  else liftPedal p s

/-- Change a pedal's sources, then drive it. -/
def changePedal (p : Pedal) (f : PedalRec → PedalRec) (s : State) : State := drivePedal p (updatePedal p f s)

/-- Change and drive both pedals, SUSTAIN first (DESIGN CHOICE, log 5: the spec gives no order). -/
def changePedals (f : PedalRec → PedalRec) (s : State) : State :=
  changePedal .soft f (changePedal .sustain f s)

/-- The roll's claim goes, and so does its memory: the cut and the end of draining (R97). -/
def PedalRec.withoutRoll (r : PedalRec) : PedalRec :=
  { r with roll := false, rollTag := none, memSet := false, memTag := none }

/-- Entering PAUSED: the memory takes the ROLL source, which is then cleared (R95). -/
def PedalRec.paused (r : PedalRec) : PedalRec :=
  { r with memSet := r.roll, memTag := if r.roll then r.rollTag else none, roll := false, rollTag := none }

/-- RESUME: the ROLL source is restored from the memory, which is then cleared (R96). -/
def PedalRec.resumed (r : PedalRec) : PedalRec :=
  { r with roll := r.memSet, rollTag := if r.memSet then r.memTag else none, memSet := false, memTag := none }

/-- A pedal whose board is disabled: UP at once, with nothing sent and its sources kept (R90). -/
def PedalRec.disabled (r : PedalRec) : PedalRec := { r with phase := .up, relWait := false, engageEnd := none }

/-- A dispatched PEDAL_DOWN (R94). -/
def takePedalDown (p : Pedal) (tag : Tag) (s : State) : State :=
  changePedal p (fun r => { r with roll := true, rollTag := some tag }) s

/-- A dispatched PEDAL_UP: it lifts the roll's claim only if its tag is the roll tag (R94). -/
def takePedalUp (p : Pedal) (tag : Tag) (s : State) : State :=
  if (s.pedal p).roll && (s.pedal p).rollTag == some tag then
    changePedal p (fun r => { r with roll := false, rollTag := none }) s
  else s

/-- A pedal's engage end (R89). -/
def endEngage (p : Pedal) (s : State) : State :=
  if (s.pedal p).relWait then
    updatePedal p (fun r => { r with phase := .up, relWait := false, engageEnd := none }) (sendPedal p .off s)
  else
    updatePedal p (fun r => { r with phase := .down, engageEnd := none })
      (sendPedal p (.hold (s.pedalHoldDuty p)) s)

end Sys2Proof.Machine
end

