-- ==== Sys2Proof/Machine/QueueOps.lean ====
section
/-!
DEFINITION. The Fire Queue: insertion, owed releases and dispatch (R99 to R105).
-/
namespace Sys2Proof.Machine

/-- How many records the Fire Queue and the owed releases may take together (R101). -/
def queueCapacity : Nat := 256

/-- Occupied entries and owed releases (R101). -/
def State.queueLoad (s : State) : Nat := s.sched.queue.length + s.sched.owed

/-- Hand a record to its key or pedal (R104). -/
def handRecord (r : FireRecord) (s : State) : State :=
  match r.kind with
  | .strike k v => strikeReaches k (r.toStrike v) s
  | .release k => releaseReaches k r.tag s
  | .pedalDown p => takePedalDown p r.tag s
  | .pedalUp p => takePedalUp p r.tag s

/-- The head record leaves the queue and is handed to its target (R104). -/
def dispatchHead (s : State) : State :=
  match s.sched.queue with
  | r :: rest => handRecord r { s with sched := { s.sched with queue := rest } }
  | [] => s

/-- Dispatch the first n records. -/
def dispatchFirst : Nat → State → State
  | 0, s => s
  | n + 1, s => dispatchFirst n (dispatchHead s)

/-- A record takes its place after those with a fire time at or before its own (R100). -/
def insertRecord (r : FireRecord) : List FireRecord → List FireRecord
  | [] => [r]
  | x :: xs => if x.fire ≤ r.fire then x :: insertRecord r xs else r :: x :: xs

/-- How many records stand before an inserted one. -/
def recordsBefore (r : FireRecord) (q : List FireRecord) : Nat := (q.takeWhile fun x => x.fire ≤ r.fire).length

/-- Insert a record. One whose fire time has come is dispatched at once, after the records that stand before it, which
are due as well (R100). -/
def enqueue (r : FireRecord) (s : State) : State :=
  let inserted := { s with sched := { s.sched with queue := insertRecord r s.sched.queue } }
  if r.fire ≤ s.playTime ∧ s.perf.state ≠ .paused then
    dispatchFirst (recordsBefore r s.sched.queue + 1) inserted
  else inserted

/-- The owed tag and the refused tag of a record's target (R101). -/
def State.targetTags (s : State) : FireKind → Option Tag × Option Tag
  | .strike k _ | .release k => ((s.key k).owed, (s.key k).refused)
  | .pedalDown p | .pedalUp p => ((s.pedal p).owed, (s.pedal p).refused)

/-- Set the owed tag of a record's target. -/
def setOwed (kind : FireKind) (t : Option Tag) (s : State) : State :=
  match kind with
  | .strike k _ | .release k => updateKey k (fun r => { r with owed := t }) s
  | .pedalDown p | .pedalUp p => updatePedal p (fun r => { r with owed := t }) s

/-- Set the refused tag of a record's target. -/
def setRefused (kind : FireKind) (t : Option Tag) (s : State) : State :=
  match kind with
  | .strike k _ | .release k => updateKey k (fun r => { r with refused := t }) s
  | .pedalDown p | .pedalUp p => updatePedal p (fun r => { r with refused := t }) s

/-- Change the owed-release count. -/
def setOwedCount (n : Nat) (s : State) : State := { s with sched := { s.sched with owed := n } }

/-- A STRIKE or PEDAL_DOWN is inserted with its release reserved, or refused for want of space (R101). -/
def admitOnset (r : FireRecord) (s : State) : State :=
  if s.queueLoad + 2 ≤ queueCapacity then
    enqueue r (setOwed r.kind (some r.tag) (setOwedCount (s.sched.owed + 1) s))
  else raise .queueFull (count .queueRefusals (setRefused r.kind (some r.tag) s))

/-- A roll RELEASE or PEDAL_UP fills the space its onset reserved, or enqueues nothing when its onset was refused
(R102). A tag that is neither does not arise within a performance; nothing is done (log 7). -/
def admitRelease (r : FireRecord) (s : State) : State :=
  if (s.targetTags r.kind).1 = some r.tag then
    enqueue r (setOwed r.kind none (setOwedCount (s.sched.owed - 1) s))
  else if (s.targetTags r.kind).2 = some r.tag then setRefused r.kind none s
  else s

end Sys2Proof.Machine
end

