-- ==== Sys2Proof/Machine/PerfOps.lean ====
section
/-!
DEFINITION. Operations that reach across blocks: the cut, the pause, the end of draining, a board's disable and enable,
and what every command ends with: the draining condition, TOUCH, the response and the notice.
-/
namespace Sys2Proof.Machine

/-! ### Performance Control and Line Clock -/

/-- The state becomes STOPPED with a reason. -/
def stopWith (reason : StopReason) (s : State) : State :=
  { s with perf := { s.perf with state := .stopped, stopReason := reason } }

/-- A pending time-base switch completes without a line (R5, R33). -/
def completeSwitch (s : State) : State :=
  match s.clock.switch with
  | some b => { s with clock := { s.clock with base := b, switch := none } }
  | none => s

/-- Replace the loop record; every change of LOCKED sets LOCK_CHANGE (R30). -/
def setLoop (l : LoopRec) (s : State) : State :=
  raiseIf (l.locked != s.clock.loop.locked) .lockChange { s with clock := { s.clock with loop := l } }

/-- A running loop goes back to ACQUIRING with P_est kept (R30). -/
def LoopRec.reacquire (l : LoopRec) : LoopRec :=
  { l with mode := .acquiring, goodRun := 0, badRun := 0, locked := false }

/-- Loss and RESUME send a running loop back to ACQUIRING; one that is OFF stays OFF (R30). -/
def reacquire (treatment : Treatment) (s : State) : State :=
  if s.clock.loop.mode = .off then s
  else setLoop { s.clock.loop.reacquire with treatment := treatment } s

/-! ### The cut (R5, R132) -/

/-- The cut at a key, but for its OFF (R5, R132). `s` holds the clock and the profile. The rest notice of a DEFERRED key copies
its observed state into its snapshot (R130, R132, R162), where the table of R164 and R151 say that the cut keeps both
(DEDUCED, log 15). -/
def KeyRec.cut (s : State) (k : Key) (r : KeyRec) : KeyRec :=
  let bare := { r with pending := none, owed := none, refused := none }
  match r.phase with
  | .resting | .releasing | .offline => bare
  | .deferred => { bare.noticed with phase := .resting, relWait := false, pulseEnd := none, holdLimit := none,
                                     returnTimer := none }
  | .striking => { bare.releasing s k with cutShort := true }
  | .held => bare.releasing s k

/-- The cut at the boards and the Scheduler: every slot is freed, and both collections and the owed count are empty
(R5, R106). -/
def emptyScheduler (s : State) : State :=
  { s with
    sched := { queue := [], owed := 0, deferral := [], total := 0 }
    port := { s.port with boards := Vector.ofFn fun b => { s.board b with inFlight := 0 } } }

/-- The cut at a pedal: the owed and refused tags go with the Scheduler's part (R5, R97). -/
def PedalRec.cut (r : PedalRec) : PedalRec := { r.withoutRoll with owed := none, refused := none }

/-- The cut (R5). The probe is abandoned before the keys rest, so its end cause is ABANDONED (R160). -/
def cut (s : State) : State :=
  let abandoned := abandonProbe .abandoned s
  let off := sendAll (offKeys (fun _ r => r.driven) abandoned) abandoned
  let keys := mapKeys (KeyRec.cut off) (emptyScheduler off)
  let pedals := changePedals PedalRec.cut keys
  let clock := completeSwitch pedals
  { clock with perf := { clock.perf with lossTimer := none, pausePoint := none } }

/-! ### Entering PAUSED (R13, R95, R133) -/

/-- Entering PAUSED at a key, but for its OFF (R133). -/
def KeyRec.paused (s : State) (k : Key) (r : KeyRec) : KeyRec :=
  match r.phase with
  | .striking => { r with relWait := true }
  | .held => r.releasing s k
  | .resting | .deferred | .releasing | .offline => r

/-- Entering PAUSED: play time freezes where it stands, since the state is PAUSED (R13, R20). -/
def enterPaused (s : State) : State :=
  let off := sendAll (offKeys (fun _ r => r.phase = .held) s) s
  let keys := mapKeys (KeyRec.paused off) off
  let pedals := changePedals PedalRec.paused keys
  raise .paused
    { pedals with perf := { pedals.perf with state := .paused, lossTimer := none, pausePoint := none } }

/-- Whether the pause point has been reached in PLAYING (R11). -/
def State.pauseReached (s : State) : Bool :=
  s.perf.state = .playing && s.perf.pausePoint.any (· ≤ s.playTime)

/-! ### Draining (R17) -/

/-- The condition that ends DRAINING (R17). -/
def State.drained (s : State) : Bool :=
  s.sched.queue.all (fun r => r.tag.origin != .roll) && s.sched.deferral.isEmpty &&
    allKeys.all fun k => (s.key k).pending.isNone && ((s.key k).phase = .resting || (s.key k).phase = .offline)

/-- The end of draining: STOPPED with reason END, the roll pedals cleared, a pending switch completed (R17, R33, R97). -/
def endDraining (s : State) : State :=
  raise .stopped (stopWith .ended (completeSwitch (changePedals PedalRec.withoutRoll s)))

/-- Examine the draining condition (R17). -/
def drainCheck (s : State) : State := if s.perf.state = .draining && s.drained then endDraining s else s

/-! ### Boards (R146, R148) -/

/-- A board's disable at a key of the board (R134, R162). -/
def KeyRec.disabled (r : KeyRec) : KeyRec :=
  { r with phase := .offline, pending := none, pulseEnd := none, holdLimit := none, returnTimer := none,
           relWait := false, pulseSent := false, expLead := none, observed := .up, snapshot := .up }

/-- Whether a key is on a board and not OFFLINE. -/
def State.onLine (s : State) (b : Board) (k : Key) : Bool := s.keyOnBoard k b && (s.key k).phase != .offline

/-- The tags with which a disable of the key would end a probe: its articulation, its entry, its pending strike
(R134). -/
def State.liveTags (s : State) (k : Key) : List (Option Tag) :=
  (if (s.key k).phase = .resting then none else (s.key k).current) ::
    (s.key k).pending.map (·.tag) ::
      (s.sched.deferral.filter fun e => e.key == k).map fun e => some e.strike.tag

/-- End the probe if its articulation, entry or pending strike is removed by a disable (R134, R160). -/
def endRemovedProbes (b : Board) (s : State) : State :=
  if allKeys.any fun k => s.onLine b k && (s.liveTags k).any s.isBusyProbe then abandonProbe .disable s else s

/-- How many entries and pending strikes a disable removes (R134). -/
def State.removedStrikes (s : State) (b : Board) : Nat :=
  (s.sched.deferral.filter fun e => s.onLine b e.key).length +
    (allKeys.filter fun k => s.onLine b k && (s.key k).pending.isSome).length

/-- Step 3 of R146: the board's keys become OFFLINE. -/
def disableKeys (b : Board) (s : State) : State :=
  let counted := countBy (s.removedStrikes b) .offlineDiscards (endRemovedProbes b s)
  let unlisted := { counted with sched := { counted.sched with
    deferral := counted.sched.deferral.filter fun e => !s.onLine b e.key } }
  mapKeys (fun k r => if s.onLine b k then r.disabled else r) unlisted

/-- Step 4 of R146: the board's pedals become UP, with nothing sent. -/
def disablePedals (b : Board) (s : State) : State :=
  let off (p : Pedal) (s : State) : State := if s.pedalOnBoard p b then updatePedal p PedalRec.disabled s else s
  off .soft (off .sustain s)

/-- Step 5 of R146: the board's slots are freed. -/
def freeBoard (b : Board) (s : State) : State :=
  updateBoard b (fun r => { r with inFlight := 0 })
    { s with sched := { s.sched with total := s.sched.total - (s.board b).inFlight } }

/-- The disable of a board, steps 1 to 6 (R146); the draining condition is examined as every command ends. -/
def disableBoard (b : Board) (reason : DisableReason) (fault : Option FaultReason) (s : State) : State :=
  let off := sendAll (offKeys (fun k r => s.keyOnBoard k b && r.driven) s ++
    offPedals (fun p r => s.pedalOnBoard p b && r.driven) s) s
  let out := updateBoard b (fun r => { r with service := .disabled reason, faultReason := fault }) off
  arbiterUnlessPaused (freeBoard b (disablePedals b (disableKeys b out)))

/-- The keys of a board that are OFFLINE become RESTING (R135). -/
def enableKeys (b : Board) (s : State) : State :=
  mapKeys (fun k r => if s.keyOnBoard k b && r.phase == .offline then { r with phase := .resting } else r) s

/-- Drive the pedals of a board (R90, R148); SUSTAIN first (DESIGN CHOICE, log 5: the rules give no order). -/
def driveBoardPedals (b : Board) (s : State) : State :=
  let drive (p : Pedal) (s : State) : State := if s.pedalOnBoard p b then drivePedal p s else s
  drive .soft (drive .sustain s)

/-- The enable of a board (R148). -/
def enableBoard (b : Board) (s : State) : State :=
  driveBoardPedals b (enableKeys b
    (updateBoard b (fun r => { r with service := .enabled, faultReason := none }) s))

/-! ### What every command ends with -/

/-- Whether a key is in mismatch (R163). -/
def KeyRec.mismatch (r : KeyRec) : Bool := r.phase = .resting && r.observed != r.snapshot

/-- Whether some key is in mismatch (R163). -/
def State.anyMismatch (s : State) : Bool := allKeys.any fun k => (s.key k).mismatch

/-- After an event: the draining condition is examined (R17), and TOUCH is set if some key is in mismatch (R163). -/
def settle (s : State) : State :=
  let t := drainCheck s
  raiseIf t.anyMismatch .touch t

/-- A part's own event, begun in s0, has led to s: settle it, and make a notice due if a flag rose (R173). -/
def finishEvent (s0 s : State) : State := dueNotice (rises s0.mgmt.flags (settle s)) (settle s)

/-- The response becomes due, and after it the notice, if the request gave cause for one (R166). -/
def respond (id : Byte) (result : Result) (data : List Byte) (cause : Bool) (s : State) : State :=
  dueNotice cause (pushFrame (.response id result data) s)

/-- A Roll Link frame fails a check: counted, LINK_ERROR set, no other effect (R165). -/
def failFrame (c : Counter) (s : State) : State := finishEvent s (raise .linkError (count c s))

/-- Whether inbound frames wait: a RESET FULL has not taken effect, or frames that waited for it are not yet taken
(R177). -/
def State.inboundWaits (s : State) : Bool := s.mgmt.fullReset ≠ .none || !s.mgmt.waiting.isEmpty

/-- An inbound frame waits (R177). -/
def addWaiting (c : Instr) (s : State) : State :=
  { s with mgmt := { s.mgmt with waiting := s.mgmt.waiting ++ [c] } }

/-- A frame that passed the frame checks reaches Roll Intake, or waits (R36, R177). -/
def intakeFrame (c : Instr) (take : State → State) (s : State) : State :=
  if s.inboundWaits then addWaiting c s else take s

/-- A request: the backlog check of R165, then the wait of R177, then the request's own rule (R167). -/
def admitRequest (c : Instr) (take : State → State) (s : State) : State :=
  if 4 ≤ s.responsesDue then failFrame .lengthKindErrors s else intakeFrame c take s

/-- Apply a request's effect and answer it (R166, R167). -/
def answer (id : Byte) (effect : State → State × Result) (s : State) : State :=
  respond id (effect s).2 [] (rises s.mgmt.flags (settle (effect s).1)) (settle (effect s).1)

/-- Apply a READ's effect and answer it: OK with data formed afterwards, or INVALID without (R167, R182). -/
def answerRead (id : Byte) (effect : State → State) (data : State → Option (List Byte)) (s : State) : State :=
  match data (settle (effect s)) with
  | some bytes => respond id .ok bytes (rises s.mgmt.flags (settle (effect s))) (settle (effect s))
  | none => respond id .invalid [] (rises s.mgmt.flags (settle s)) (settle s)

/-- The outcome of every command: a next state. -/
abbrev Out := Host.Outcome State Fault Refusal

/-- A request whose rule fixes an effect and a result. -/
def request (c : Instr) (id : Byte) (effect : State → State × Result) (s : State) : Out :=
  .next (admitRequest c (answer id effect) s)

/-- A READ request. -/
def readRequest (c : Instr) (id : Byte) (effect : State → State) (data : State → Option (List Byte)) (s : State) :
    Out :=
  .next (admitRequest c (answerRead id effect data) s)

/-- An event that happens only when its condition holds; one whose condition does not hold has no effect (log 2). -/
def timedEvent (due : Bool) (act : State → State) (s : State) : Out :=
  .next (if due then finishEvent s (act s) else s)

end Sys2Proof.Machine
end

