-- ==== Sys2Proof/Machine/LineOps.lean ====
section
/-!
DEFINITION. An accepted scan line: its line time and the lock loop (R24 to R32), alignment and hole detection (R41 to
R49), the regulators and intensity (R56 to R69), the strike, release and pedal computations (R74 to R82, R92, R93), and
the order in which a line is handed on (R38, R51).
-/
namespace Sys2Proof.Machine

/-! ### The lock loop (R26 to R29) -/

/-- P_est is clamped to 7/8 to 9/8 of the nominal period (R27). -/
def clampPeriod (pNom : Nat) (p : Int) : Nat := (clampInt (pNom * 224) (pNom * 288) p).toNat

/-- The predicted arrival of a line after g missing ones (R26). -/
def LoopRec.predicted (l : LoopRec) (g : Nat) : Nat := l.tLoop + (g + 1) * (l.pEst / 256)

/-- The phase after a step from the prediction (R27). -/
def stepPhase (pred : Nat) (step : Int) : Nat := heldTime (pred + step).toNat

/-- A MEASURE line in ACQUIRING: the gains of R27, then the acquisition bound of R28. -/
def acquire (pNom pred : Nat) (e : Int) (l : LoopRec) : LoopRec :=
  let good := if e.natAbs ≤ pNom / 32 then l.goodRun + 1 else 0
  let moved := { l with tLoop := stepPhase pred (e / 4), pEst := clampPeriod pNom (l.pEst + e * 16), lastError := e }
  if 16 ≤ good then { moved with mode := .tracking, goodRun := 0, badRun := 0 } else { moved with goodRun := good }

/-- A MEASURE line in TRACKING: the gains of R27, then the bounds of R29. -/
def track (pNom pred : Nat) (e : Int) (l : LoopRec) : LoopRec :=
  let good := if e.natAbs ≤ pNom / 64 then min 32 (l.goodRun + 1) else 0
  let bad := if pNom / 16 < e.natAbs then l.badRun + 1 else 0
  let moved := { l with tLoop := stepPhase pred (e / 16), pEst := clampPeriod pNom (l.pEst + e * 2), lastError := e }
  if 4 ≤ bad then { moved with mode := .acquiring, goodRun := 0, badRun := 0, locked := false }
  else { moved with goodRun := good, badRun := bad, locked := l.locked || good == 32 }

/-- A MEASURE line: predict, measure, and update, or distrust a gap of more than 8 (R26). -/
def measureLine (pNom arrival g : Nat) (l : LoopRec) : LoopRec :=
  let pred := l.predicted g
  let e : Int := (arrival : Int) - pred
  if 8 < g then
    { l with tLoop := heldTime pred, lastError := e, mode := .acquiring, goodRun := 0, badRun := 0, locked := false }
  else
    match l.mode with
    | .tracking => track pNom pred e l
    | .acquiring | .off => acquire pNom pred e l

/-- What an accepted line after `last` does to the loop: one that is OFF is not reached (R26). -/
def LoopRec.onLine (l : LoopRec) (pNom arrival g : Nat) : LoopRec :=
  if l.mode = .off then l
  else
    match l.treatment with
    | .seed => { l with tLoop := arrival, treatment := .measure }
    | .reseed => { l with tLoop := heldTime (max arrival (l.tLoop + l.pEst / 256)), treatment := .measure }
    | .measure => measureLine pNom arrival g l

/-- What the first line after START does to the loop (R3). -/
def LoopRec.onFirstLine (l : LoopRec) (arrival : Nat) : LoopRec :=
  if l.mode = .off then l else { l with tLoop := arrival, treatment := .measure }

/-! ### The line time (R24, R32) -/

/-- The line time of a line after `last`; `l` is the loop before the line, `l'` after it (R24). -/
def State.lineTime (s : State) (last : Stamp) (n : Nat) (l' : LoopRec) : Nat :=
  match s.clock.base with
  | .free => heldTime (last.time + (n - last.line) * s.pNom)
  | .line =>
    if s.clock.loop.treatment = .reseed then
      heldTime (max s.playTime (last.time + s.clock.loop.pEst / 256))
    else l'.tLoop

/-- A pending switch completes at the line: LINE takes the stamped time as its phase (R32). -/
def switchAt (t : Nat) (l : LoopRec) (s : State) : State :=
  match s.clock.switch with
  | none => setLoop l s
  | some .line =>
    let s' := setLoop { l with tLoop := t } s
    { s' with clock := { s'.clock with base := .line, switch := none } }
  | some .free =>
    let s' := setLoop l s
    { s' with clock := { s'.clock with base := .free, switch := none } }

/-- The line joins the history, whose oldest entry beyond four goes, and is the last accepted line (R38). -/
def recordLine (n t : Nat) (s : State) : State :=
  let h := s.intake.history ++ [⟨n, t⟩]
  { s with intake := { last := some n, history := h.drop (h.length - 4) } }

/-- Step 1 and 2 of R38: stamp the line, treat the loop, count a gap of more than 8 (R26), and record the line. -/
def stampLine (n : Nat) (s : State) : State :=
  match s.perf.state, s.intake.history.getLast? with
  | .armed, _ | _, none => recordLine n s.playTime (switchAt s.playTime (s.clock.loop.onFirstLine s.playTime) s)
  | _, some last =>
    let g := n - last.line - 1
    let l := s.clock.loop.onLine s.pNom s.playTime g
    let t := s.lineTime last n l
    let counted := if 8 < g then count .gapEvents s else s
    recordLine n t (switchAt t l counted)

/-- The line time of a line in the history (R38); a line that has left it does not arise (R45), and would take the
newest entry's time (log 7). -/
def State.timeOf (s : State) (line : Nat) : Nat :=
  match s.intake.history.find? (·.line == line) with
  | some st => st.time
  | none => (s.intake.history.getLast?.map (·.time)).getD 0

/-! ### Cues (R9, R10) -/

/-- Set the pause point unless one is set (R9, R10). -/
def setPausePoint (t : Nat) (s : State) : State :=
  match s.perf.pausePoint with
  | some _ => s
  | none => { s with perf := { s.perf with pausePoint := some t } }

/-- The strike time of a line: its line time plus D, held at the largest play time (R78). -/
def State.strikeTime (s : State) (line : Nat) : Nat := heldTime (s.timeOf line + s.playDelay)

/-- The cue check of an accepted line (R9). -/
def checkCues (n : Nat) (s : State) : State :=
  if s.perf.cues.any (· ≤ n) then
    setPausePoint (s.strikeTime n)
      (raise .cue { s with perf := { s.perf with cues := s.perf.cues.filter (n < ·) } })
  else s

/-- Start or restart the loss timer (R6). -/
def startLossTimer (s : State) : State :=
  { s with perf := { s.perf with lossTimer := some (s.expiry s.lossTimeout) } }

/-- Performance Control takes the stamped line: PLAYING, the loss timer, the cues (R3, R6, R9). -/
def performLine (n : Nat) (s : State) : State :=
  checkCues n (startLossTimer { s with perf := { s.perf with state := .playing } })

/-! ### Alignment (R42, R43) -/

/-- The outermost cells at or below EdgeThreshold (R42). -/
def paperEdges (threshold : Nat) (cells : Vector Byte 128) : Option (Nat × Nat) :=
  let dark := (List.range 128).filter fun i => (cells[i]?).any (·.toNat ≤ threshold)
  dark.head?.bind fun left => dark.getLast?.map fun right => (left, right)

/-- The measured shift, by truncating division (R42). -/
def measuredShift (refSum left right : Nat) : Int :=
  clampInt (-8) 8 (Int.tdiv ((left : Int) + right - refSum) 2)

/-- The runs and the applied shift after a measurement (R43). -/
def TrackReader.aligned (r : TrackReader) (hold : Nat) (measured : Int) : TrackReader :=
  if r.shift < measured then
    if hold ≤ r.upRun + 1 then { r with shift := r.shift + 1, upRun := 0, downRun := 0 }
    else { r with upRun := r.upRun + 1, downRun := 0 }
  else if measured < r.shift then
    if hold ≤ r.downRun + 1 then { r with shift := r.shift - 1, upRun := 0, downRun := 0 }
    else { r with upRun := 0, downRun := r.downRun + 1 }
  else { r with upRun := 0, downRun := 0 }

/-- Step 2 of R51: measure the line; ALIGN_LIMIT if a move has reached +8 or -8 (R42, R43). -/
def alignLine (cells : Vector Byte 128) (s : State) : State :=
  if s.reader.detect[4] = 1 then
    match paperEdges s.reader.detect[6] cells with
    | none => { s with reader := { s.reader with upRun := 0, downRun := 0 } }
    | some (left, right) =>
      let r := s.reader.aligned s.reader.detect[5] (measuredShift s.reader.detect[7] left right)
      raiseIf (r.shift != s.reader.shift && (r.shift == 8 || r.shift == -8)) .alignLimit { s with reader := r }
  else s

/-! ### Hole detection and effective states (R44 to R49, R53) -/

/-- The sample a track reads: a cell outside 0 to 127 is dark (R44). -/
def trackSample (base : Nat) (shift : Int) (cells : Vector Byte 128) (t : Track) : Nat :=
  let c : Int := base + t.val + shift
  if 0 ≤ c then ((cells[c.toNat]?).map (·.toNat)).getD 0 else 0

/-- A line's sample at a detector, and the run first line of a change it confirms (R45, R46). -/
def Detector.sense (d : Detector) (openAt closeAt confirm n sample : Nat) : Detector × Option Nat :=
  let agrees := if d.raw then decide (sample ≤ closeAt) else decide (openAt ≤ sample)
  if agrees then
    let first := if d.run = 0 then n else d.runFirst.getD n
    if confirm ≤ d.run + 1 then ({ d with raw := !d.raw, run := 0, runFirst := none }, some first)
    else ({ d with run := d.run + 1, runFirst := some first }, none)
  else ({ d with run := 0, runFirst := none }, none)

/-- What a track makes of a line: its detector afterwards, an effective opening with its line, an effective closing
with its line and the opening line it ends, an onset with its line. -/
structure TrackStep where
  det     : Detector
  opening : Option Nat
  closing : Option (Nat × Nat)
  onset   : Option Nat
  deriving DecidableEq, Repr

/-- The effective state and transition of a level channel (R49). -/
def levelStep (n : Nat) (mask : Bool) (d : Detector) (confirmed : Option Nat) (maskBefore : Bool) : TrackStep :=
  let eff := d.raw && !mask
  let line := if mask || maskBefore then n else confirmed.getD n
  if eff = d.eff then ⟨d, none, none, none⟩
  else if eff then ⟨{ d with eff := true, openLine := some line }, some line, none, none⟩
  else ⟨{ d with eff := false, openLine := none }, none, some (line, d.openLine.getD line), none⟩

/-- A track's part in steps 1, 3 and 7 of R51 (R45, R46, R49, R53). -/
def trackStep (openAt closeAt confirm n sample : Nat) (e : RouteEntry) (d : Detector) : TrackStep :=
  let sensed := d.sense openAt closeAt confirm n sample
  let marked := { sensed.1 with maskLast := e.mask }
  match e.function with
  | .note _ | .pedal _ | .expr .. => levelStep n e.mask marked sensed.2 d.maskLast
  | .endMark | .cue => ⟨marked, none, none, if !d.raw && !e.mask then sensed.2 else none⟩
  | .unused => ⟨marked, none, none, none⟩

/-- Every track's part in a line, at the applied shift held when the line arrives, through the function in force and the
mask flag held (R44, R48, R49, R51). -/
def trackSteps (n : Nat) (cells : Vector Byte 128) (s : State) : Vector TrackStep 112 :=
  Vector.ofFn fun t =>
    trackStep s.reader.detect[1] s.reader.detect[2] s.reader.detect[3] n
      (trackSample s.reader.detect[0] s.reader.shift cells t) ⟨s.reader.inForce[t], s.reader.route[t].mask⟩
      s.reader.detectors[t]

/-- The detectors after a line. -/
def setDetectors (steps : Vector TrackStep 112) (s : State) : State :=
  { s with reader := { s.reader with detectors := Vector.ofFn fun t => steps[t].det } }

/-! ### The Expression Unit (R56 to R69) -/

/-- Whether some track of a function is effectively OPEN (R56, R67), by the functions in force: until the next START a LOAD
ROUTE moves no channel, and the last accepted line's states stand (R48, R55). -/
def State.channelOpen (s : State) (f : RouteFn) : Bool :=
  allTracks.any fun t => s.reader.inForce[t] == f && s.reader.detectors[t].eff

/-- A bit counts 1 when open (R56). -/
def bitValue (isOpen : Bool) (weight : Nat) : Nat := if isOpen then weight else 0

/-- The shading code of a half (R56). -/
def State.shadingCode (s : State) (h : Half) : Nat :=
  bitValue (s.channelOpen (.expr h .int1)) 1 + bitValue (s.channelOpen (.expr h .int2)) 2 +
    bitValue (s.channelOpen (.expr h .int4)) 4

/-- The rate selector of a half: FAST governs SLOW (R56). -/
def State.rateSelector (s : State) (h : Half) : RateSel :=
  if s.channelOpen (.expr h .fast) then .fast else if s.channelOpen (.expr h .slow) then .slow else .base

/-- The rate of a selector, from the Shading table (R57). -/
def State.rateOf (s : State) : RateSel → Nat
  | .base => s.expr.shading[16]
  | .slow => s.expr.shading[17]
  | .fast => s.expr.shading[18]

/-- The shading target of a half for a code (R57, R60). -/
def State.shadingTarget (s : State) (h : Half) (code : Nat) : Nat :=
  (s.expr.shading[(match h with | .bass => 0 | .treble => 8) + code]?).getD 0

/-- A level moves toward its target by at most the rate and never past it (R57 step 4). -/
def moveLevel (level target rate : Nat) : Nat :=
  if level < target then min target (level + rate) else if target < level then max target (level - rate) else level

/-- A half's regulator. -/
def State.regulator (s : State) : Half → Regulator
  | .bass => s.expr.bass
  | .treble => s.expr.treble

/-- A regulator's step on an accepted line (R57, R58). -/
def State.steppedRegulator (s : State) (h : Half) : Regulator :=
  let code := s.shadingCode h
  let sel := s.rateSelector h
  { level := moveLevel (s.regulator h).level (s.shadingTarget h code) (s.rateOf sel)
    target := s.shadingTarget h code, code := code, rate := sel, rateValue := s.rateOf sel
    accent := s.channelOpen (.expr h .accent) }

/-- Step 4 of R51: both regulators are stepped. -/
def stepRegulators (s : State) : State :=
  { s with expr := { s.expr with bass := s.steppedRegulator .bass, treble := s.steppedRegulator .treble } }

/-- The effective level of a half (R58). -/
def State.effectiveLevel (s : State) (h : Half) : Nat :=
  if (s.regulator h).accent then min 1023 ((s.regulator h).level + s.accentBoost) else (s.regulator h).level

/-- The half of a key (R62). -/
def State.halfOf (s : State) (k : Key) : Half := if keyNumber k < s.split then .bass else .treble

/-- Whether the soft coupling applies (R67). -/
def State.softApplies (s : State) : Bool :=
  (s.channelOpen (.pedal .soft) || (s.pedal .soft).manual) && !(s.pedal .soft).inhibit

/-- The soft scaling (R68). -/
def softScaled (i factor : Nat) : Nat := max 1 (i * factor / 256)

/-- The curve value of a key's half (R63, R69). -/
def State.curveValue (s : State) (k : Key) : Nat :=
  (s.expr.curve[s.effectiveLevel (s.halfOf k) / 4]?).getD 0

/-- The unscaled intensity of a key (R69 step 4). -/
def State.unscaledIntensity (s : State) (k : Key) : Nat :=
  (clampInt 1 1000 (s.curveValue k + s.expr.voicing[k])).toNat

/-- The intensity of a strike of a key (R69). -/
def State.strikeIntensity (s : State) (k : Key) : Nat :=
  if s.softApplies then softScaled (s.unscaledIntensity k) s.softFactor else s.unscaledIntensity k

/-! ### The Strike Computer (R75 to R82) -/

/-- Interpolation between two values with truncating division (R76). -/
def interpolate (a b : Nat) (distance span : Nat) : Nat :=
  ((a : Int) + Int.tdiv (((b : Int) - a) * distance) span).toNat

/-- Width and lead on the segment from a to b (R76). -/
def onSegment (a b : CalPoint) (i : Nat) : Nat × Nat :=
  (interpolate a.width b.width (i - a.intensity) (b.intensity - a.intensity),
    interpolate a.lead b.lead (i - a.intensity) (b.intensity - a.intensity))

/-- Width and lead of an intensity (R75, R76). -/
def CalRec.widthLead (r : CalRec) (i : Nat) : Nat × Nat :=
  if i ≤ r.p0.intensity then (r.p0.width, r.p0.lead)
  else if r.p3.intensity ≤ i then (r.p3.width, r.p3.lead)
  else if r.p2.intensity ≤ i then onSegment r.p2 r.p3 i
  else if r.p1.intensity ≤ i then onSegment r.p1 r.p2 i
  else onSegment r.p0 r.p1 i

/-- The effective lead: the correction, then the clamp (R77). -/
def effectiveLead (lead : Nat) (c : Int) : Nat := (clampInt 1000 60000 (lead + c)).toNat

/-- The values a strike of a key at an intensity is driven with (R75 to R77). -/
def State.strikeVals (s : State) (k : Key) (i : Nat) : StrikeVals :=
  let wl := s.strike.calib[k].widthLead i
  ⟨i, wl.1, effectiveLead wl.2 (s.key k).correction, (s.key k).correction⟩

/-- The STRIKE record of a key's opening at a line (R78, R79). -/
def State.strikeRecord (s : State) (k : Key) (line : Nat) : FireRecord :=
  let v := s.strikeVals k (s.strikeIntensity k)
  ⟨.strike k v, ⟨.roll, line⟩, s.strikeTime line - v.leadEff⟩

/-- A key's last-strike note takes the record's values (R73, R79). -/
def noteStrike (k : Key) (v : StrikeVals) (tag : Tag) (fire : Nat) (s : State) : State :=
  { s with strike := { s.strike with
      lastNotes := s.strike.lastNotes.set k (some ⟨tag, v.intensity, v.width, v.leadEff, fire⟩) } }

/-- A strike request (R69, R74, R79): the note is replaced whatever the Scheduler does. -/
def requestStrike (k : Key) (line : Nat) (s : State) : State :=
  let v := s.strikeVals k (s.strikeIntensity k)
  let r := s.strikeRecord k line
  admitOnset r (noteStrike k v r.tag r.fire s)

/-- The release time of a key's closing, raised to its own strike's fire time (R80). Its sum is held at the largest play time
as a strike's is (DEDUCED, log 3). -/
def State.releaseTime (s : State) (k : Key) (line opening : Nat) : Nat :=
  let r := s.strikeTime line - s.strike.calib[k].rl
  match s.strike.lastNotes[k] with
  | some note => if note.tag = ⟨.roll, opening⟩ then max r note.fire else r
  | none => r

/-- A release request (R80). -/
def requestRelease (k : Key) (line opening : Nat) (s : State) : State :=
  admitRelease ⟨.release k, ⟨.roll, opening⟩, s.releaseTime k line opening⟩ s

/-! ### Pedal requests (R92, R93) -/

/-- A pedal-down request: the last-down note is replaced whatever the Scheduler does, and the sum T(n) + D is held as for
strikes (R92). -/
def requestPedalDown (p : Pedal) (line : Nat) (s : State) : State :=
  let r : FireRecord := ⟨.pedalDown p, ⟨.roll, line⟩, s.strikeTime line - s.engageLead p⟩
  admitOnset r (updatePedal p (fun rec => { rec with lastDown := some ⟨r.tag, r.fire⟩ }) s)

/-- The fire time of a pedal-up request, raised to its own PEDAL_DOWN's (R93). Its sum is held at the largest play time as a
strike's is (DEDUCED, log 3). -/
def State.pedalUpTime (s : State) (p : Pedal) (line opening : Nat) : Nat :=
  let r := s.strikeTime line - s.pedalReleaseLead p
  match (s.pedal p).lastDown with
  | some note => if note.tag.number = opening then max r note.fire else r
  | none => r

/-- A pedal-up request (R93). -/
def requestPedalUp (p : Pedal) (line opening : Nat) (s : State) : State :=
  admitRelease ⟨.pedalUp p, ⟨.roll, opening⟩, s.pedalUpTime p line opening⟩ s

/-! ### Handing a line on (R51 to R53) -/

/-- An effective closing of a track's function (R52). -/
def handClosing (f : RouteFn) (line opening : Nat) (s : State) : State :=
  match f with
  | .note k => requestRelease k line opening s
  | .pedal p => requestPedalUp p line opening s
  | .expr .. | .unused | .endMark | .cue => s

/-- An effective opening of a track's function (R52). -/
def handOpening (f : RouteFn) (line : Nat) (s : State) : State :=
  match f with
  | .note k => requestStrike k line s
  | .pedal p => requestPedalDown p line s
  | .expr .. | .unused | .endMark | .cue => s

/-- Step 5 of R51: the closings, in ascending track number. -/
def handClosings (steps : Vector TrackStep 112) (s : State) : State :=
  allTracks.foldl (fun s t =>
    match steps[t].closing with
    | some (line, opening) => handClosing s.reader.inForce[t] line opening s
    | none => s) s

/-- Step 6 of R51: the openings, in ascending track number. -/
def handOpenings (steps : Vector TrackStep 112) (s : State) : State :=
  allTracks.foldl (fun s t =>
    match steps[t].opening with
    | some line => handOpening s.reader.inForce[t] line s
    | none => s) s

/-- A CUE onset at line m: counted, and with roll-mark pausing on in PLAYING it sets CUE and a pause point (R10). -/
def cueOnset (m : Nat) (s : State) : State :=
  let counted := { s with reader := { s.reader with rollMarks := min 65535 (s.reader.rollMarks + 1) } }
  if s.rollMarkPausing && s.perf.state = .playing then setPausePoint (s.strikeTime m) (raise .cue counted)
  else counted

/-- The CUE onsets of a line, in ascending track number (R51 step 7). -/
def handCues (steps : Vector TrackStep 112) (s : State) : State :=
  allTracks.foldl (fun s t =>
    match s.reader.inForce[t], steps[t].onset with
    | .cue, some m => cueOnset m s
    | _, _ => s) s

/-- The lines of a line's END onsets (R53). -/
def endLines (steps : Vector TrackStep 112) (s : State) : List Nat :=
  allTracks.filterMap fun t => if s.reader.inForce[t] = .endMark then steps[t].onset else none

/-- A detector at an END onset: an effectively open level channel closes, and every run is cleared (R16, R53). -/
def Detector.ended (d : Detector) (f : RouteFn) : Detector :=
  let bare := { d with run := 0, runFirst := none }
  if f.isLevel && d.eff then { bare with raw := false, eff := false, openLine := none } else bare

/-- The line of a synthesised closing: the END line, or the channel's opening line where that is later (R16). A channel
without an opening line, which no run holds open, takes the END line (log 7). -/
def Detector.endClosing (d : Detector) (e : Nat) : Nat := max e (d.openLine.getD e)

/-- The END onset at line e (R16, R53). -/
def endOnset (e : Nat) (s : State) : State :=
  let dets := s.reader.detectors
  let closed := { s with reader := { s.reader with
    detectors := Vector.ofFn fun t => dets[t].ended s.reader.inForce[t] } }
  let handed := allTracks.foldl (fun s t =>
    if s.reader.inForce[t].isLevel && dets[t].eff then
      handClosing s.reader.inForce[t] (dets[t].endClosing e) (dets[t].openLine.getD e) s
    else s) closed
  raise .endOfRoll
    { handed with perf := { handed.perf with state := .draining, lossTimer := none, pausePoint := none } }

/-- The END onsets of a line make one, at the earliest of their lines (R53). -/
def handEnd (steps : Vector TrackStep 112) (s : State) : State :=
  match endLines steps s with
  | [] => s
  | e :: es => endOnset (es.foldl min e) s

/-- The Track Reader takes a stamped line, in the order of R51. -/
def readLine (n : Nat) (cells : Vector Byte 128) (s : State) : State :=
  let steps := trackSteps n cells s
  let shaded := stepRegulators (alignLine cells (setDetectors steps s))
  handEnd steps (handCues steps (handOpenings steps (handClosings steps shaded)))

/-- A pause point at or before play time is reached once the line's handling is complete (R11). -/
def reachPause (s : State) : State := if s.pauseReached then enterPaused s else s

/-- An accepted line is handed on in the order of R38. -/
def acceptLine (n : Nat) (cells : Vector Byte 128) (s : State) : State :=
  reachPause (readLine n cells (performLine n (stampLine n s)))

/-- Acceptance by the state and the line number (R37). -/
def offerLine (n : Nat) (cells : Vector Byte 128) (s : State) : State :=
  match s.perf.state with
  | .stopped => count .idleLines s
  | .armed => acceptLine n cells s
  | .playing => if s.intake.last.any (n ≤ ·) then count .staleLines s else acceptLine n cells s
  | .paused => count .pausedLines s
  | .draining => count .afterEndLines s

end Sys2Proof.Machine
end

