-- ==== Sys2Proof/Machine/Frames.lean ====
section
/-!
DEFINITION. What the part sends: the codes and fields of responses, the READ data of each object (R170, R182), notices,
and the bytes of Roll Link and Action Link frames (R179, R182, R183).
-/
namespace Sys2Proof.Machine

/-! ### Codes: enumerations are numbered in the order of the rule that defines them (R182) -/

/-- The result codes (R182). -/
def Result.code : Result → Nat
  | .ok => 0
  | .clamped => 1
  | .busy => 2
  | .interlock => 3
  | .once => 4
  | .invalid => 5
  | .notReady => 6
  | .full => 7
  | .unknown => 8

/-- The performance states (R182). -/
def PerfState.code : PerfState → Nat
  | .stopped => 0
  | .armed => 1
  | .playing => 2
  | .paused => 3
  | .draining => 4

/-- The stop reasons (R182). -/
def StopReason.code : StopReason → Nat
  | .none => 0
  | .request => 1
  | .ended => 2
  | .lost => 3
  | .reset => 4

/-- The time bases, in the order of R23. -/
def Base.code : Base → Nat
  | .free => 0
  | .line => 1

/-- The loop modes, in the order of R23. -/
def LoopMode.code : LoopMode → Nat
  | .off => 0
  | .acquiring => 1
  | .tracking => 2

/-- The rate selectors (R182). -/
def RateSel.code : RateSel → Nat
  | .base => 0
  | .slow => 1
  | .fast => 2

/-- The key phases, in the order of R117. -/
def KeyPhase.code : KeyPhase → Nat
  | .resting => 0
  | .deferred => 1
  | .striking => 2
  | .held => 3
  | .releasing => 4
  | .offline => 5

/-- The pedal phases, in the order of R86. -/
def PedalPhase.code : PedalPhase → Nat
  | .up => 0
  | .engaging => 1
  | .down => 2

/-- The return timer's kinds, in the order of R117. -/
def TimerKind.code : TimerKind → Nat
  | .timeout => 0
  | .fixed => 1

/-- The adapt states, in the order of R151. -/
def AdaptState.code : AdaptState → Nat
  | .active => 0
  | .frozen => 1

/-- Observed and snapshot, in the order of R151. -/
def Position.code : Position → Nat
  | .up => 0
  | .down => 1

/-- The tag origins (R182). -/
def Origin.code : Origin → Nat
  | .roll => 0
  | .probe => 1

/-- A board's service state (R182). -/
def Service.code : Service → Nat
  | .enabled => 0
  | .disabled .noProfile => 1
  | .disabled .absent => 2
  | .disabled .request => 3
  | .disabled .fault => 4

/-- The fault reasons, in the order of R138. -/
def faultCode : FaultReason → Nat
  | .overcurrent => 0
  | .thermal => 1
  | .supply => 2

/-- The end causes, in the order of R158. -/
def EndCause.code : EndCause → Nat
  | .report => 0
  | .rest => 1
  | .offline => 2
  | .late => 3
  | .disable => 4
  | .abandoned => 5

/-! ### Fields (R182) -/

/-- A one-byte field. -/
def f1 (n : Nat) : List Byte := beBytes 1 n

/-- A two-byte field. -/
def f2 (n : Nat) : List Byte := beBytes 2 n

/-- A line number. -/
def f3 (n : Nat) : List Byte := beBytes 3 n

/-- P_est. -/
def f4 (n : Nat) : List Byte := beBytes 4 n

/-- A time. -/
def f6 (n : Nat) : List Byte := beBytes 6 n

/-- A signed two-byte field, in two's complement. Of a value beyond it, which only a probe's error can be, the low 16 bits
are sent (DESIGN CHOICE, log 14). -/
def i2 (i : Int) : List Byte := f2 (BitVec.ofInt 16 i).toNat

/-- The last error of the lock loop, six bytes signed; beyond them the low 48 bits (DESIGN CHOICE, log 14). -/
def i6 (i : Int) : List Byte := f6 (BitVec.ofInt 48 i).toNat

/-- Set or clear. -/
def fBool (b : Bool) : List Byte := f1 (if b then 1 else 0)

/-- A flag set. -/
def fFlags (x : BitVec 16) : List Byte := f2 x.toNat

/-- An optional field of a known size: a presence byte, then the field, or zeros (R182). -/
def fOpt {α : Type} (size : Nat) (field : α → List Byte) : Option α → List Byte
  | some a => 1 :: field a
  | none => 0 :: List.replicate size 0

/-- A tag: origin, then the number in three bytes. -/
def fTag (t : Tag) : List Byte := f1 t.origin.code ++ f3 t.number

/-- An optional tag. -/
def fTag? : Option Tag → List Byte := fOpt 4 fTag

/-- An optional time. -/
def fTime? : Option Nat → List Byte := fOpt 6 f6

/-- What a strike is driven with: I, W, Lead_eff, c_k used. -/
def fVals (v : StrikeVals) : List Byte := f2 v.intensity ++ f2 v.width ++ f2 v.leadEff ++ i2 v.cUsed

/-- A pending strike: the fields of a Deferral List entry but for the key (R109, R117). -/
def fStrike (st : Strike) : List Byte := fTag st.tag ++ fVals st.vals ++ f6 st.fire ++ fBool st.relWait

/-! ### READ data, each in the order in which its rule lists the fields -/

/-- READ STATUS (R170). The lowest cue is an optional field, absent with no cue, and so are the last accepted line and its line
time, one field of 9 bytes with one presence byte (DESIGN CHOICE, log 8: R170 and R182 do not say). -/
def statusData (s : State) : List Byte :=
  f1 s.perf.state.code ++ f1 s.perf.stopReason.code ++ f2 s.perf.cues.length ++ fOpt 3 f3 s.perf.cues.head? ++
    fTime? s.perf.pausePoint ++ f6 s.playTime ++ f6 s.clock.actionTime ++ f1 s.clock.base.code ++
    fBool s.clock.switch.isSome ++ fBool s.clock.loop.locked ++
    fOpt 9 (fun st : Stamp => f3 st.line ++ f6 st.time) s.intake.history.getLast? ++ i2 s.reader.shift ++
    f2 s.reader.rollMarks ++ f1 (if s.calib.globalAdapt then 0 else 1) ++ fBool s.probeBusy ++
    allBoards.flatMap (fun b => f1 (s.board b).service.code) ++ fBool s.port.profile.isSome ++
    fFlags s.mgmt.flags ++ fFlags s.mgmt.enables

/-- The Calibration Unit's fields of READ KEY (R164). -/
def keyCalibData (r : KeyRec) : List Byte :=
  i2 r.correction ++ f1 r.adapt.code ++ f2 r.outlierRun ++ f2 r.missedRun ++ fBool r.strikeSeen ++ fBool r.cutShort ++
    f1 r.observed.code ++ f1 r.snapshot.code

/-- READ KEY (R137, R164). The return timer is one optional field, its action time and then its kind (DESIGN CHOICE, log 8). -/
def keyData (s : State) (k : Key) : List Byte :=
  let r := s.key k
  f1 r.phase.code ++ fTag? r.current ++ fBool r.pulseSent ++ fBool r.relWait ++ fOpt 2 f2 r.expLead ++
    fOpt 19 fStrike r.pending ++ fTag? r.owed ++ fTag? r.refused ++ fTime? r.pulseEnd ++ fTime? r.holdLimit ++
    fOpt 7 (fun t : Nat × TimerKind => f6 t.1 ++ f1 t.2.code) r.returnTimer ++ f2 r.missedRest ++ fBool r.faultFlag ++
    keyCalibData r ++
    fOpt 16 (fun n : LastStrike => fTag n.tag ++ f2 n.intensity ++ f2 n.width ++ f2 n.leadEff ++ f6 n.fire)
      s.strike.lastNotes[k]

/-- READ KEYS (R163). -/
def keysData (s : State) : List Byte := allKeys.flatMap fun k => f1 (s.key k).observed.code

/-- One half of READ REGULATORS (R55). -/
def regulatorData (s : State) (h : Half) : List Byte :=
  let r := s.regulator h
  f2 r.level ++ f2 r.target ++ f2 r.code ++ f1 r.rate.code ++ f2 r.rateValue ++ fBool r.accent ++
    f2 (s.effectiveLevel h)

/-- READ REGULATORS (R55). -/
def regulatorsData (s : State) : List Byte :=
  regulatorData s .bass ++ regulatorData s .treble ++ fBool s.softApplies

/-- One pedal of READ PEDALS (R86); the commanded state is coded up 0, down 1 (DEDUCED, log 8). A set memory without a tag is a
present field of zeros, and board and channel are one optional field, absent too for a pedal that a written profile maps
to NONE (DESIGN CHOICE, log 8: R86 names its absence only while no profile is written). -/
def pedalData (s : State) (p : Pedal) : List Byte :=
  let r := s.pedal p
  fBool r.roll ++ fTag? r.rollTag ++ fBool r.manual ++ fBool r.inhibit ++
    fOpt 4 (fun t : Option Tag => (t.map fTag).getD (List.replicate 4 0)) (if r.memSet then some r.memTag else none) ++
    f1 r.phase.code ++ fBool r.relWait ++ fTime? r.engageEnd ++
    fOpt 10 (fun n : LastDown => fTag n.tag ++ f6 n.fire) r.lastDown ++ fTag? r.owed ++ fTag? r.refused ++
    f1 (if s.commandedDown p then 1 else 0) ++
    fOpt 4 (fun w : Board × Nat => f2 w.1.val ++ f2 w.2) (s.pedalWire p)

/-- READ PEDALS (R86). -/
def pedalsData (s : State) : List Byte := allPedals.flatMap (pedalData s)

/-- One board of READ BOARDS (R149); M_b and each of the three duties and widths is an optional field of its own (DESIGN CHOICE,
log 8: R149 names the absence of the three together). -/
def boardData (r : BoardRec) : List Byte :=
  fBool r.present ++ f1 r.service.code ++ fOpt 1 (fun x => f1 (faultCode x)) r.faultReason ++ f2 r.inFlight ++
    fOpt 2 f2 (r.params.map (·.mB)) ++ fOpt 2 f2 (r.params.map (·.holdDuty)) ++
    fOpt 2 f2 (r.params.map (·.engageWidth)) ++ fOpt 2 f2 (r.params.map (·.pedalHoldDuty))

/-- A board number or NONE, and a channel (DEDUCED, log 8). -/
def wireData (b : Option Board) (channel : Nat) : List Byte := fOpt 2 (fun b : Board => f2 b.val) b ++ f2 channel

/-- The profile of READ BOARDS: M_tot, the key timers, the key maps and the pedal maps (R149). -/
def profileData (p : Profile) : List Byte :=
  f2 p.mTot ++ f2 p.holdLimit ++ f2 p.returnTimeout ++ f2 p.returnTime ++
    allKeys.flatMap (fun k => wireData p.keys[k].board p.keys[k].channel ++ fBool p.keys[k].sensor) ++
    allPedals.flatMap fun q => wireData (p.pedalMap q).board (p.pedalMap q).channel

/-- The size of profileData. -/
def profileDataSize : Nat := 8 + 88 * 6 + 2 * 5

/-- READ BOARDS (R149). -/
def boardsData (s : State) : List Byte :=
  allBoards.flatMap (fun b => boardData (s.board b)) ++ fOpt profileDataSize profileData s.port.profile

/-- READ LOOP (R23). The pending switch is an optional field, a presence byte and then the target base (DESIGN CHOICE, log 8: R182
does not say whether 'none, or the target base' is that or one byte). -/
def loopData (s : State) : List Byte :=
  let l := s.clock.loop
  f1 s.clock.base.code ++ fOpt 1 (fun b : Base => f1 b.code) s.clock.switch ++ f1 l.mode.code ++ fBool l.locked ++
    f4 l.pEst ++ f6 l.tLoop ++ f2 l.goodRun ++ f2 l.badRun ++ i6 l.lastError

/-- A Deferral List entry of READ QUEUE (R182). -/
def entryData (e : DeferralEntry) : List Byte :=
  f1 (keyNumber e.key) ++ fTag e.strike.tag ++ fVals e.strike.vals ++ f6 e.strike.fire ++ fBool e.strike.relWait

/-- The number of a pedal as a target: 89 SUSTAIN, 90 SOFT (R182). -/
def pedalTarget : Pedal → Nat
  | .sustain => 89
  | .soft => 90

/-- A Fire Queue record of READ QUEUE: values it does not carry are 0 (R182). -/
def recordData (r : FireRecord) : List Byte :=
  match r.kind with
  | .strike k v => f1 0 ++ f1 (keyNumber k) ++ fTag r.tag ++ f6 r.fire ++ fVals v
  | .release k => f1 1 ++ f1 (keyNumber k) ++ fTag r.tag ++ f6 r.fire ++ List.replicate 8 0
  | .pedalDown p => f1 2 ++ f1 (pedalTarget p) ++ fTag r.tag ++ f6 r.fire ++ List.replicate 8 0
  | .pedalUp p => f1 3 ++ f1 (pedalTarget p) ++ fTag r.tag ++ f6 r.fire ++ List.replicate 8 0

/-- How many items of 20 bytes a READ QUEUE response carries (R182). -/
def queueItems : Nat := 50

/-- READ QUEUE (R116, R182): entries first, then records, together at most 50. -/
def queueData (s : State) (q : QueueAt) : List Byte :=
  let entries := (s.sched.deferral.drop q.deferral.toNat).take queueItems
  let records := (s.sched.queue.drop q.fire.toNat).take (queueItems - entries.length)
  f2 s.sched.queue.length ++ f1 s.sched.owed ++ f1 s.sched.total ++ f1 s.totalLimit ++ f1 s.sched.deferral.length ++
    f1 entries.length ++ f1 records.length ++ entries.flatMap entryData ++ records.flatMap recordData

/-- READ COUNTERS: the fourteen counters in the order of R175. -/
def countersData (s : State) : List Byte := s.mgmt.counters.toList.flatMap f2

/-- READ PROBE (R158): of a record that holds no probe every field is absent, and sent as zeros (R182; DEDUCED, log 9). A
result, absent while busy, is an optional field: its code in the order of R158 (R182: a measured lead 0, NONE 1), then the
lead, which is zeros for NONE (DESIGN CHOICE, log 9: R182 gives the lead no place). The end cause, which
R158 does not call absent while the probe is busy, is an optional field too (DESIGN CHOICE, log 9). The error and the
correction after, which R158 names together, are two optional fields with a presence byte each (DESIGN CHOICE, log 9). Of an
error beyond two signed bytes the low 16 bits are sent (DESIGN CHOICE, log 14). -/
def probeData (s : State) : List Byte :=
  match s.calib.probe with
  | some p =>
    fBool p.busy ++ f2 p.serial ++ f2 (keyNumber p.key) ++ f2 p.intensity ++ f2 p.hold ++ f2 p.width ++ f2 p.leadEff ++
      i2 p.cUsed ++ f6 p.fire ++ f6 p.release ++
      fOpt 3 (fun r : ProbeResult => match r with
        | .measured m => f1 0 ++ f2 m
        | .none => f1 1 ++ f2 0) p.result ++
      fOpt 1 (fun c : EndCause => f1 c.code) p.endCause ++ fOpt 2 i2 p.error ++ fOpt 2 i2 p.corrAfter
  | none => List.replicate 39 0

/-! ### READ TABLE (R171, R181) -/

/-- The function byte and parameter byte of a Route entry (R181). -/
def routeBytes : RouteFn → List Byte
  | .unused => [0, 0]
  | .note k => f1 1 ++ f1 (keyNumber k)
  | .pedal .sustain => [2, 0]
  | .pedal .soft => [2, 1]
  | .expr h b =>
    f1 3 ++ f1 ((match h with | .bass => 0 | .treble => 16) +
      (match b with | .int1 => 0 | .int2 => 1 | .int4 => 2 | .slow => 3 | .fast => 4 | .accent => 5))
  | .endMark => [4, 0]
  | .cue => [5, 0]

/-- A point of a Calibration record. -/
def pointBytes (p : CalPoint) : List Byte := f2 p.intensity ++ f2 p.width ++ f2 p.lead

/-- A Calibration record. -/
def calBytes (r : CalRec) : List Byte :=
  pointBytes r.p0 ++ pointBytes r.p1 ++ pointBytes r.p2 ++ pointBytes r.p3 ++ f2 r.rl

/-- The size of a table's entries, and its entries in their LOAD encoding; none for a code that is no table (R181). -/
def tableEntries (s : State) : Nat → Option (Nat × List (List Byte))
  | 1 => some (3, s.reader.route.toList.map fun e => routeBytes e.function ++ fBool e.mask)
  | 2 => some (1, s.reader.detect.toList.map f1)
  | 3 => some (2, s.expr.shading.toList.map f2)
  | 4 => some (2, s.expr.curve.toList.map f2)
  | 5 => some (2, s.expr.voicing.toList.map i2)
  | 6 => some (26, s.strike.calib.toList.map calBytes)
  | 7 => some (4, s.clock.timing.toList.map f4)
  | 8 => some (2, s.calib.adaptParam.toList.map f2)
  | _ => none

/-- READ TABLE: as many entries as asked, as the table holds, and as fit in 1024 bytes (R171, R182). -/
def tableData (s : State) (t : TableAt) : Option (List Byte) :=
  match tableEntries s t.table.toNat with
  | some (size, entries) =>
    if t.first.toNat < entries.length && t.count != 0 then
      let out := (entries.drop t.first.toNat).take (min t.count.toNat ((1024 - 6) / size))
      some (f1 t.table.toNat ++ f2 t.first.toNat ++ f1 out.length ++ out.flatten)
    else none
  | none => none

/-! ### Frames (R179, R182, R183) -/

/-- KIND and payload of a frame that has left. -/
def SentFrame.content : SentFrame → Byte × List Byte
  | .response id result data => (0x20, id :: f1 result.code ++ data)
  | .notice flags state reason time => (0x21, fFlags flags ++ f1 state.code ++ f1 reason.code ++ f6 time)

/-- The bytes of a Roll Link frame (R179). -/
def rollFrame (kind : Byte) (payload : List Byte) : List Byte :=
  let body := kind :: f2 payload.length ++ payload
  rollSync :: body ++ crcBytes body

/-- The bytes of a frame that has left. -/
def SentFrame.bytes (f : SentFrame) : List Byte := rollFrame f.content.1 f.content.2

/-- Kind and parameter of a drive command (R183). -/
def DriveAction.code : DriveAction → Nat × Nat
  | .pulse w => (1, w)
  | .hold d => (2, d)
  | .off => (3, 0)

/-- The seven bytes of a drive command (R183). -/
def DriveCmd.bytes (c : DriveCmd) : List Byte :=
  let body := f1 (16 * c.board.val + c.action.code.1) ++ f1 c.channel ++ f2 c.action.code.2
  actionSync :: body ++ crcBytes body

/-- What has left on the Roll Link, byte by byte. -/
def State.rollWire (s : State) : List Byte := s.link.sentRoll.flatMap SentFrame.bytes

/-- What has left on the Action Link, byte by byte. -/
def State.actionWire (s : State) : List Byte := s.link.sentDrive.flatMap DriveCmd.bytes

/-- The contents of a notice, formed as it begins to leave: every flag set and enabled, the state, the stop reason and
play time (R173). -/
def noticeNow (s : State) : SentFrame :=
  .notice (s.mgmt.flags &&& s.mgmt.enables) s.perf.state s.perf.stopReason s.playTime

end Sys2Proof.Machine
end

