-- ==== Sys2Proof/Machine/Boards.lean ====
section
/-!
DEFINITION. BOARD requests and the reports of the boards (R143 to R148, R154, R155, R162).
-/
namespace Sys2Proof.Machine

/-- A BOARD request reaches a board: INVALID for a number above 3, then NOT_READY (R147). -/
def onBoard (take : Board → State → State × Result) (n : Byte) (s : State) : State × Result :=
  match boardOf? n.toNat with
  | none => (s, .invalid)
  | some b => if s.port.profile.isNone then (s, .notReady) else take b s

/-- BOARD ENABLE (R147). -/
def takeEnable (b : Board) (s : State) : State × Result :=
  match (s.board b).service with
  | .disabled .absent => (s, .invalid)
  | .disabled .noProfile | .disabled .request | .disabled .fault =>
    if s.perf.state = .playing then (s, .busy) else (enableBoard b s, .ok)
  | .enabled => if s.perf.state = .playing then (s, .busy) else (s, .ok)

/-- BOARD ENABLE (R147). -/
def execBoardEnable (id : Byte) (f : Form Byte) (s : State) : Out :=
  request (.boardEnable id f) id (onForm f (onBoard takeEnable)) s

/-- BOARD DISABLE: a board already DISABLED keeps its reason (R147). -/
def takeDisable (b : Board) (s : State) : State × Result :=
  if s.boardEnabled b then (disableBoard b .request none s, .ok) else (s, .ok)

/-- BOARD DISABLE (R147). -/
def execBoardDisable (id : Byte) (f : Form Byte) (s : State) : Out :=
  request (.boardDisable id f) id (onForm f (onBoard takeDisable)) s

/-- The board of a report, if the profile has it present (R143). -/
def State.presentBoard (s : State) (n : BitVec 4) : Option Board :=
  (boardOf? n.toNat).filter fun b => s.port.profile.isSome && (s.board b).present

/-- The key a STRIKE or REST report is routed to; none if the report is discarded as stray (R143, R144). -/
def State.reportKey (s : State) (board : BitVec 4) (channel : Byte) : Option Key :=
  (s.presentBoard board).bind fun b =>
    if s.boardEnabled b ∧ channel.toNat < 24 then s.keyAt b channel.toNat else none

/-- OutlierLimit (R152). -/
def State.outlierLimit (s : State) : Nat := s.calib.adaptParam[0]

/-- AdaptShift (R152). -/
def State.adaptShift (s : State) : Nat := s.calib.adaptParam[1]

/-- The correction after an error, by floor division (R155). -/
def correctedBy (c e : Int) (shift : Nat) : Int := clampInt (-4000) 4000 (c + e / (2 ^ shift : Nat))

/-- An outlier (R155). -/
def takeOutlier (k : Key) (s : State) : State :=
  let run := min 3 ((s.key k).outlierRun + 1)
  freeze (run == 3) k (updateKey k (fun r => { r with outlierRun := run }) (count .outliers s))

/-- An error within OutlierLimit (R155). -/
def takeError (k : Key) (e : Int) (s : State) : State :=
  updateKey k (fun r => { r with
    outlierRun := 0
    correction := if s.calib.globalAdapt && r.adapt = .active then correctedBy r.correction e s.adaptShift
                  else r.correction }) s

/-- A measurement: the error against the expected lead, the correction or the outlier, and the end of a probe that the
articulation belongs to (R155, R160). An absent expected lead, which no run leaves in the air, counts as 0 (log 7). -/
def takeMeasurement (k : Key) (m : Nat) (s : State) : State :=
  let e : Int := (m : Int) - (((s.key k).expLead.getD 0 : Nat) : Int)
  let seen := updateKey k (fun r => { r with strikeSeen := true }) s
  let judged := if s.outlierLimit < e.natAbs then takeOutlier k seen else takeError k e seen
  if s.isBusyProbe (s.key k).current then
    finishProbe (fun p => { p with
      result := some (.measured m), endCause := some .report, error := some e
      corrAfter := some (judged.key k).correction }) judged
  else judged

/-- What a STRIKE report does to the observed state (R162). -/
def observeStrike (k : Key) (s : State) : State :=
  match (s.key k).phase with
  | .resting => if s.hasSensor k then updateKey k (fun r => { r with observed := .down }) s else s
  | .deferred | .striking | .held | .releasing => updateKey k (fun r => { r with observed := .down }) s
  | .offline => s

/-- Whether a tag is that of a probe that has ended (R160). -/
def State.isEndedProbe (s : State) (tag : Option Tag) : Bool := tag.any (·.origin == .probe) && !s.isBusyProbe tag

/-- A STRIKE report for a key, classified by R154. A report for a probe's articulation that comes after the probe has ended
measures nothing (R160): with strike-seen clear it is taken as a cut-short report is (DEDUCED, log 13). -/
def takeStrikeReport (k : Key) (m : Nat) (s : State) : State :=
  let r := s.key k
  let judged :=
    match r.phase with
    | .striking | .held | .releasing =>
      if r.pulseSent && !r.strikeSeen then
        if r.cutShort || s.isEndedProbe r.current then updateKey k (fun r => { r with strikeSeen := true }) s
        else takeMeasurement k m s
      else s
    | .resting | .deferred | .offline => s
  observeStrike k judged

/-- STRIKE_REPORT: routed to a key, or discarded as stray (R143, R144). -/
def execStrikeReport (board : BitVec 4) (channel : Byte) (measured : BitVec 16) (s : State) : Out :=
  .next (finishEvent s
    (match s.reportKey board channel with
    | some k => takeStrikeReport k measured.toNat s
    | none => count .strayReports s))

/-- A REST report for a key: the observed state, and in RELEASING the end of the return (R128, R162). -/
def takeRestReport (k : Key) (s : State) : State :=
  match (s.key k).phase with
  | .offline => s
  | .releasing => keyRests k (updateKey k (fun r => { r with observed := .up }) s)
  | .resting | .deferred | .striking | .held => updateKey k (fun r => { r with observed := .up }) s

/-- REST_REPORT: routed to a key, or discarded as stray (R143, R144). -/
def execRestReport (board : BitVec 4) (channel : Byte) (s : State) : Out :=
  .next (finishEvent s
    (match s.reportKey board channel with
    | some k => takeRestReport k s
    | none => count .strayReports s))

/-- A FAULT report for a present board (R145). A board ABSENT or without a profile is not present (R143). -/
def takeFault (b : Board) (reason : FaultReason) (s : State) : State :=
  raise .boardFault
    (if s.boardEnabled b then disableBoard b .fault (some reason) s
    else updateBoard b (fun r => { r with service := .disabled .fault, faultReason := some reason }) s)

/-- FAULT_REPORT (R143, R145). -/
def execFaultReport (board : BitVec 4) (reason : FaultReason) (s : State) : Out :=
  .next (finishEvent s
    (match s.presentBoard board with
    | some b => takeFault b reason s
    | none => count .strayReports s))

/-- STRAY_REPORT: a board frame that failed its checks is counted and has no other effect (R143). -/
def execStrayReport (s : State) : Out := .next (finishEvent s (count .strayReports s))

end Sys2Proof.Machine
end

