-- ==== Sys2Proof/Machine/Clock.lean ====
section
/-!
DEFINITION. TIMEBASE and LOOP (R25, R31).
-/
namespace Sys2Proof.Machine

/-- TIMEBASE: the answers of R31 in their order. -/
def takeTimebase (b : Base) (s : State) : State × Result :=
  if s.clock.switch.isSome then (s, .busy)
  else if b = .line ∧ s.clock.loop.mode ≠ .tracking then (s, .interlock)
  else if b = s.clock.base then (s, .ok)
  else if s.perf.state = .stopped then ({ s with clock := { s.clock with base := b } }, .ok)
  else ({ s with clock := { s.clock with switch := some b } }, .ok)

/-- TIMEBASE FREE (R31). -/
def execTimebaseFree (id : Byte) (f : Form Unit) (s : State) : Out :=
  request (.timebaseFree id f) id (onForm f fun _ => takeTimebase .free) s

/-- TIMEBASE LINE (R31). -/
def execTimebaseLine (id : Byte) (f : Form Unit) (s : State) : Out :=
  request (.timebaseLine id f) id (onForm f fun _ => takeTimebase .line) s

/-- LOOP ON: from OFF it enters ACQUIRING at the nominal period with treatment SEED (R25). -/
def takeLoopOn (s : State) : State :=
  if s.clock.loop.mode = .off then
    setLoop { s.clock.loop with mode := .acquiring, pEst := s.pNom * 256, goodRun := 0, badRun := 0, lastError := 0,
                                treatment := .seed } s
  else s

/-- LOOP ON (R25). -/
def execLoopOn (id : Byte) (f : Form Unit) (s : State) : Out :=
  request (.loopOn id f) id (onForm f fun _ s => (takeLoopOn s, .ok)) s

/-- LOOP OFF: refused with the base LINE or a switch to LINE pending; with the mode OFF nothing changes (R25). -/
def takeLoopOff (s : State) : State × Result :=
  if s.clock.base = .line ∨ s.clock.switch = some .line then (s, .interlock)
  else if s.clock.loop.mode = .off then (s, .ok)
  else (setLoop { s.clock.loop with mode := .off, goodRun := 0, badRun := 0, locked := false } s, .ok)

/-- LOOP OFF (R25). -/
def execLoopOff (id : Byte) (f : Form Unit) (s : State) : Out :=
  request (.loopOff id f) id (onForm f fun _ => takeLoopOff) s

end Sys2Proof.Machine
end

