-- ==== Sys2Proof/Machine/Events.lean ====
section
/-!
DEFINITION. The timed events of the queue and the keys: DISPATCH, PULSE_END, HOLD_LIMIT, RETURN_TIMER (R104, R123,
R126, R129).
-/
namespace Sys2Proof.Machine

/-- Whether play time has reached the head record's fire time and runs (R104). -/
def State.headDue (s : State) : Bool :=
  s.perf.state ≠ .paused && s.sched.queue.head?.any (·.fire ≤ s.playTime)

/-- DISPATCH: the head record is handed to its target (R104). -/
def execDispatch (s : State) : Out := timedEvent s.headDue dispatchHead s

/-- The HoldDuty of a key's board (R123). -/
def State.holdDuty (s : State) (k : Key) : Nat :=
  ((s.keyWire k).bind fun w => (s.board w.1).params.map (·.holdDuty)).getD 0

/-- The profile's HoldLimit in µs (R123, R139). -/
def State.holdLimitTime (s : State) : Nat := (s.port.profile.map (·.holdLimit)).getD 0 * 1000000

/-- A key at its pulse end acts on its release-waiting (R123). -/
def afterPulse (k : Key) (s : State) : State :=
  if (s.key k).relWait then letGo k s
  else
    updateKey k (fun r => { r with phase := .held, holdLimit := some (s.expiry s.holdLimitTime) })
      (sendKey k (.hold (s.holdDuty k)) s)

/-- A pulse end: the slot is freed, which runs the arbiter, and the key then acts (R108, R123). -/
def endPulse (k : Key) (s : State) : State :=
  afterPulse k (arbiterUnlessPaused (dropSlot k (updateKey k (fun r => { r with pulseEnd := none }) s)))

/-- PULSE_END (R123). -/
def execPulseEnd (k : Key) (s : State) : Out :=
  timedEvent ((s.key k).phase = .striking && s.reached (s.key k).pulseEnd) (endPulse k) s

/-- HOLD_LIMIT (R126). -/
def execHoldLimit (k : Key) (s : State) : Out :=
  timedEvent ((s.key k).phase = .held && s.reached (s.key k).holdLimit)
    (fun s => raise .holdExpired (letGo k s)) s

/-- A return given up: counted and flagged when its kind is TIMEOUT (R129). -/
def recordReturn (k : Key) (kind : TimerKind) (s : State) : State :=
  match kind with
  | .timeout =>
    raise .sensorFault
      (updateKey k (fun r => { r with missedRest := min 255 (r.missedRest + 1), faultFlag := true }) s)
  | .fixed => s

/-- The return timer's expiry: record it by its kind, and the key rests (R129). -/
def endReturn (k : Key) (s : State) : State :=
  match (s.key k).returnTimer with
  | some (_, kind) => keyRests k (recordReturn k kind s)
  | none => s

/-- RETURN_TIMER (R129). -/
def execReturnTimer (k : Key) (s : State) : Out :=
  timedEvent ((s.key k).phase = .releasing && s.reached ((s.key k).returnTimer.map (·.1))) (endReturn k) s

end Sys2Proof.Machine
end

