-- ==== Sys2Proof/Machine/Intake.lean ====
section
/-!
DEFINITION. What arrives on the Roll Link besides known requests: SCAN_LINE, ROLL_LINK_FRAME_ERROR, UNKNOWN_REQUEST
(R36, R37, R165, R167).
-/
namespace Sys2Proof.Machine

/-- SCAN_LINE: accepted or refused by the performance state and the line number (R37). -/
def execScanLine (line : BitVec 24) (cells : Vector Byte 128) (s : State) : Out :=
  .next (intakeFrame (.scanLine line cells) (fun s => finishEvent s (offerLine line.toNat cells s)) s)

/-- The counter of a failed frame check (R165). -/
def checkCounter : FrameCheck → Counter
  | .crc => .crcErrors
  | .length | .kind | .payload | .backlog => .lengthKindErrors

/-- ROLL_LINK_FRAME_ERROR: counted and flagged, no other effect (R165). -/
def execRollLinkFrameError (check : FrameCheck) (s : State) : Out := .next (failFrame (checkCounter check) s)

/-- UNKNOWN_REQUEST: answered UNKNOWN, nothing changes (R167 step 1). -/
def execUnknownRequest (id kind : Byte) (s : State) : Out :=
  request (.unknownRequest id kind) id (fun s => (s, .unknown)) s

end Sys2Proof.Machine
end

