-- ==== Sys2Proof/Machine/Loads.lean ====
section
/-!
DEFINITION. PROFILE, the eight table loads and MASK (R22, R40, R48, R50, R61, R64, R66, R72, R140, R141, R153, R168).
-/
namespace Sys2Proof.Machine

/-! ### The profile (R139 to R141, R169) -/

/-- A board byte: 0 to 3 a board, 0xFF NONE, anything else none at all (R140 step 1). -/
def rawBoard? (b : Byte) : Option (Option Board) :=
  if b = 0xFF then some none else (boardOf? b.toNat).map some

/-- A key map, if its board and channel are in range. -/
def keyMap? (r : RawKeyMap) : Option KeyMap :=
  if r.channel.toNat < 24 then (rawBoard? r.board).map fun b => ⟨b, r.channel.toNat, r.sensor⟩ else none

/-- A pedal map, if its board and channel are in range. -/
def pedalMap? (r : RawPedalMap) : Option PedalMap :=
  if r.channel.toNat < 24 then (rawBoard? r.board).map fun b => ⟨b, r.channel.toNat⟩ else none

/-- A stated parameter clamped to its range, or its default (R139, R140 step 4). -/
def stated {w : Nat} (lo hi dflt : Nat) : Option (BitVec w) → Nat
  | some v => clampNat lo hi v.toNat
  | none => dflt

/-- Whether a stated parameter is out of its range. -/
def outside {w : Nat} (lo hi : Nat) (v : Option (BitVec w)) : Bool := v.any fun x => x.toNat < lo || hi < x.toNat

/-- The parameters of a board entry (R139). -/
def boardParams (r : RawBoard) : BoardParams :=
  ⟨stated 1 24 8 r.mB, stated 0 255 48 r.holdDuty, stated 2000 40000 20000 r.engageWidth,
    stated 0 255 96 r.pedalHoldDuty⟩

/-- Whether step 4 of R140 clamps a value. -/
def profileClamped (r : RawProfile) : Bool :=
  allBoards.any (fun b => outside 1 24 r.boards[b].mB || outside 2000 40000 r.boards[b].engageWidth) ||
    outside 1 64 r.mTot || outside 1 60 r.holdLimit || outside 40 500 r.returnTimeout || outside 20 300 r.returnTime

/-- The wires of a profile's targets, NONE left out. -/
def profileWires (p : Profile) : List (Board × Nat) :=
  allKeys.filterMap (fun k => p.keys[k].board.map fun b => (b, p.keys[k].channel)) ++
    allPedals.filterMap fun q => (p.pedalMap q).board.map fun b => (b, (p.pedalMap q).channel)

/-- Whether some element stands twice. -/
def hasRepeat : List (Board × Nat) → Bool
  | [] => false
  | x :: xs => xs.contains x || hasRepeat xs

/-- The profile a request carries, or none if steps 1 to 3 of R140 find it INVALID. -/
def profileOf? (r : RawProfile) : Option Profile :=
  match pedalMap? r.sustain, pedalMap? r.soft with
  | some sus, some soft =>
    if allKeys.all fun k => (keyMap? r.keys[k]).isSome then
      let p : Profile := {
        keys := Vector.ofFn fun k => (keyMap? r.keys[k]).getD ⟨none, 0, false⟩
        sustain := sus, soft := soft, mTot := stated 1 64 20 r.mTot, holdLimit := stated 1 60 20 r.holdLimit
        returnTimeout := stated 40 500 150 r.returnTimeout, returnTime := stated 20 300 80 r.returnTime }
      if (profileWires p).all (fun w => r.boards[w.1].present) && !hasRepeat (profileWires p) then some p else none
    else none
  | _, _ => none

/-- A board record as the profile is written: a present board is ENABLED, another DISABLED with reason ABSENT (R141). -/
def BoardRec.written (b : BoardRec) (r : RawBoard) : BoardRec :=
  { b with present := r.present, service := if r.present then .enabled else .disabled .absent,
           params := some (boardParams r) }

/-- The profile is written (R141); of two pedals it presses SUSTAIN's PULSE leaves first (DESIGN CHOICE, log 5). -/
def writeProfile (r : RawProfile) (p : Profile) (s : State) : State :=
  let written := { s with port := {
    boards := Vector.ofFn fun b => (s.board b).written r.boards[b], profile := some p } }
  let keys := mapKeys (fun k key =>
    if (written.keyWire k).any fun w => written.boardEnabled w.1 then { key with phase := .resting } else key) written
  drivePedal .soft (drivePedal .sustain keys)

/-- A PROFILE request: ONCE if a profile is written, its contents unexamined (R169). -/
def takeProfile (r : RawProfile) (s : State) : State × Result :=
  match profileOf? r with
  | some p => (writeProfile r p s, loadResult (profileClamped r))
  | none => (s, .invalid)

/-- PROFILE (R169). The form check of R167 comes before the rule's own. -/
def execProfile (id : Byte) (f : Form RawProfile) (s : State) : Out :=
  request (.profile id f) id
    (onForm f fun r s => if s.port.profile.isSome then (s, .once) else takeProfile r s) s

/-! ### The loads (R168) -/

/-- The Route Table of a load (R48). -/
def takeRoute (l : Load RawRoute) (s : State) : State × Result :=
  if s.perf.state ≠ .stopped then (s, .busy)
  else if addresses 112 l then
    match routeEntries? l.entries with
    | some es =>
      let route := overlay s.reader.route l.first.toNat es
      if routeClash route then (s, .invalid)
      else ({ s with reader := { s.reader with route := route } }, .ok)
    | none => (s, .invalid)
  else (s, .invalid)

/-- LOAD_ROUTE: a count of 0 is refused by the envelope before the table's rule (R48, R168). -/
def execLoadRoute (id : Byte) (f : Form (Load RawRoute)) (s : State) : Out :=
  request (.loadRoute id f) id
    (onForm f fun l s => if l.entries.isEmpty then (s, .invalid) else takeRoute l s) s

/-- The Detect table of a load (R40). -/
def takeDetect (l : Load Byte) (s : State) : State × Result :=
  if s.perf.state ≠ .stopped then (s, .busy)
  else if addresses 8 l then
    let t := clampedLoad detectRange s.reader.detect l
    if t.1[2] < t.1[1] then ({ s with reader := { s.reader with detect := t.1 } }, loadResult t.2)
    else (s, .invalid)
  else (s, .invalid)

/-- LOAD_DETECT (R40, R168). -/
def execLoadDetect (id : Byte) (f : Form (Load Byte)) (s : State) : Out :=
  request (.loadDetect id f) id
    (onForm f fun l s => if l.entries.isEmpty then (s, .invalid) else takeDetect l s) s

/-- The Shading table of a load (R61). -/
def takeShading (l : Load (BitVec 16)) (s : State) : State × Result :=
  if addresses 22 l then
    let t := clampedLoad shadingRange s.expr.shading l
    ({ s with expr := { s.expr with shading := t.1 } }, loadResult t.2)
  else (s, .invalid)

/-- LOAD_SHADING (R61). -/
def execLoadShading (id : Byte) (f : Form (Load (BitVec 16))) (s : State) : Out :=
  request (.loadShading id f) id (onForm f takeShading) s

/-- The Dynamics Curve of a load (R64). -/
def takeCurve (l : Load (BitVec 16)) (s : State) : State × Result :=
  if addresses 256 l then
    let t := clampedLoad (fun _ => (0, 1000)) s.expr.curve l
    if nondecreasing t.1.toList then ({ s with expr := { s.expr with curve := t.1 } }, loadResult t.2)
    else (s, .invalid)
  else (s, .invalid)

/-- LOAD_CURVE (R64). -/
def execLoadCurve (id : Byte) (f : Form (Load (BitVec 16))) (s : State) : Out :=
  request (.loadCurve id f) id (onForm f takeCurve) s

/-- The Voicing table of a load (R66). -/
def takeVoicing (l : Load (BitVec 16)) (s : State) : State × Result :=
  if addresses 88 l then
    let loaded := clampEntries (fun _ (v : BitVec 16) => clampInt (-200) 200 v.toInt) l
    ({ s with expr := { s.expr with voicing := overlay s.expr.voicing l.first.toNat loaded } },
      loadResult (loaded != l.entries.map BitVec.toInt))
  else (s, .invalid)

/-- LOAD_VOICING (R66). -/
def execLoadVoicing (id : Byte) (f : Form (Load (BitVec 16))) (s : State) : Out :=
  request (.loadVoicing id f) id (onForm f takeVoicing) s

/-- The Calibration table of a load (R72). -/
def takeCalibration (l : Load RawCal) (s : State) : State × Result :=
  if addresses 88 l then
    let loaded := l.entries.map clampCal
    if loaded.all CalRec.rising then
      ({ s with strike := { s.strike with calib := overlay s.strike.calib l.first.toNat loaded } },
        loadResult (loaded != l.entries.map rawCal))
    else (s, .invalid)
  else (s, .invalid)

/-- LOAD_CALIBRATION (R72). -/
def execLoadCalibration (id : Byte) (f : Form (Load RawCal)) (s : State) : Out :=
  request (.loadCalibration id f) id (onForm f takeCalibration) s

/-- No pedal lead exceeds D less 10,000 (R22 step 2). -/
def leadsFit (t : Vector Nat 9) : Bool :=
  t[4] + 10000 ≤ t[1] && t[5] + 10000 ≤ t[1] && t[6] + 10000 ≤ t[1] && t[7] + 10000 ≤ t[1]

/-- The Timing table of a load, in the order of R22. -/
def takeTiming (l : Load (BitVec 32)) (s : State) : State × Result :=
  if addresses 9 l then
    let t := clampedLoad timingRange s.clock.timing l
    if !leadsFit t.1 then (s, .invalid)
    else if t.1[1] ≠ s.playDelay ∧ s.perf.state ≠ .stopped then (s, .busy)
    else if t.1[0] ≠ s.pNom ∧ s.clock.loop.mode ≠ .off then (s, .interlock)
    else ({ s with clock := { s.clock with timing := t.1 } }, loadResult t.2)
  else (s, .invalid)

/-- LOAD_TIMING (R22). -/
def execLoadTiming (id : Byte) (f : Form (Load (BitVec 32))) (s : State) : Out :=
  request (.loadTiming id f) id (onForm f takeTiming) s

/-- The AdaptParam table of a load (R153). -/
def takeAdaptParam (l : Load (BitVec 16)) (s : State) : State × Result :=
  if addresses 2 l then
    let t := clampedLoad adaptRange s.calib.adaptParam l
    ({ s with calib := { s.calib with adaptParam := t.1 } }, loadResult t.2)
  else (s, .invalid)

/-- LOAD_ADAPTPARAM (R153). -/
def execLoadAdaptParam (id : Byte) (f : Form (Load (BitVec 16))) (s : State) : Out :=
  request (.loadAdaptParam id f) id (onForm f takeAdaptParam) s

/-! ### MASK (R50) -/

/-- The Route Table with the mask flag of every listed track set or cleared (R50). -/
def maskedRoute (on : Bool) (tracks : List Byte) (route : Vector RouteEntry 112) : Vector RouteEntry 112 :=
  Vector.ofFn fun t => if tracks.any (·.toNat == t.val) then { route[t] with mask := on } else route[t]

/-- A MASK list is applied whole, or refused if any track exceeds 111 (R50). -/
def takeMask (on : Bool) (tracks : List Byte) (s : State) : State × Result :=
  if tracks.all (·.toNat < 112) then
    ({ s with reader := { s.reader with route := maskedRoute on tracks s.reader.route } }, .ok)
  else (s, .invalid)

/-- MASK_SET (R50). -/
def execMaskSet (id : Byte) (f : Form (List Byte)) (s : State) : Out :=
  request (.maskSet id f) id (onForm f (takeMask true)) s

/-- MASK_CLEAR (R50). -/
def execMaskClear (id : Byte) (f : Form (List Byte)) (s : State) : Out :=
  request (.maskClear id f) id (onForm f (takeMask false)) s

end Sys2Proof.Machine
end

