-- ==== Sys2Proof/Machine/Management.lean ====
section
/-!
DEFINITION. CLEAR, NOTICES and the leaving of outbound frames (R166, R172 to R174, R177).
-/
namespace Sys2Proof.Machine

/-- The flags after a CLEAR (R172). -/
def clearFlags (set : BitVec 16) (s : State) : State :=
  { s with mgmt := { s.mgmt with flags := s.mgmt.flags &&& ~~~set } }

/-- A CLEAR that is taken: after the clearing the keys are examined, and TOUCH may rise again at once (R163, R172). -/
def answerClear (id : Byte) (set : BitVec 16) (s : State) : State :=
  let cleared := clearFlags set s
  let settled := settle cleared
  respond id .ok [] (rises cleared.mgmt.flags settled) settled

/-- CLEAR (R172). -/
def execClear (id : Byte) (f : Form (BitVec 16)) (s : State) : Out :=
  match f with
  | .good set => .next (admitRequest (.clear id f) (answerClear id set) s)
  | .bad => request (.clear id f) id (fun s => (s, .invalid)) s

/-- Whether a set enables a flag that was disabled and is set (R174). -/
def newlyEnabledSet (set : BitVec 16) (s : State) : Bool := set &&& ~~~s.mgmt.enables &&& s.mgmt.flags != 0

/-- A NOTICES that is taken (R174). -/
def answerNotices (id : Byte) (set : BitVec 16) (s : State) : State :=
  let settled := settle { s with mgmt := { s.mgmt with enables := set } }
  respond id .ok [] (rises s.mgmt.flags settled || newlyEnabledSet set s) settled

/-- NOTICES (R174). -/
def execNotices (id : Byte) (f : Form (BitVec 16)) (s : State) : Out :=
  match f with
  | .good set => .next (admitRequest (.notices id f) (answerNotices id set) s)
  | .bad => request (.notices id f) id (fun s => (s, .invalid)) s

/-- A frame leaves whole; the rest stay due. -/
def sendFrame (f : SentFrame) (rest : List OutFrame) (s : State) : State :=
  { s with
    mgmt := { s.mgmt with outbound := rest }
    link := { s.link with sentRoll := s.link.sentRoll ++ [f] } }

/-- When no response is left due, that of a RESET FULL has left: no request was taken after it (R177). -/
def noteFullReset (s : State) : State :=
  if s.mgmt.fullReset = .responding ∧ s.responsesDue = 0 then
    { s with mgmt := { s.mgmt with fullReset := .ready } }
  else s

/-- RESPONSE_SEND: the response at the head of the frames due leaves; if none stands there, nothing does (R166). -/
def execResponseSend (s : State) : Out :=
  match s.mgmt.outbound with
  | .response id result data :: rest => .next (noteFullReset (sendFrame (.response id result data) rest s))
  | .notice :: _ | [] => .next s

/-- NOTICE_SEND: the notice at the head of the frames due leaves, formed as it does (R166, R173). -/
def execNoticeSend (s : State) : Out :=
  match s.mgmt.outbound with
  | .notice :: rest => .next (sendFrame (noticeNow s) rest s)
  | .response .. :: _ | [] => .next s

end Sys2Proof.Machine
end

