-- ==== Sys2Proof/Machine/Pedals.lean ====
section
/-!
DEFINITION. The PEDAL requests and ENGAGE_END (R89, R91).
-/
namespace Sys2Proof.Machine

/-- PEDAL ASSERT sets the MANUAL source (R91). -/
def execPedalAssert (id : Byte) (f : Form Pedal) (s : State) : Out :=
  request (.pedalAssert id f) id
    (onForm f fun p s => (changePedal p (fun r => { r with manual := true }) s, .ok)) s

/-- PEDAL DEASSERT clears the MANUAL source (R91). -/
def execPedalDeassert (id : Byte) (f : Form Pedal) (s : State) : Out :=
  request (.pedalDeassert id f) id
    (onForm f fun p s => (changePedal p (fun r => { r with manual := false }) s, .ok)) s

/-- PEDAL INHIBIT sets INHIBIT (R91). -/
def execPedalInhibit (id : Byte) (f : Form Pedal) (s : State) : Out :=
  request (.pedalInhibit id f) id
    (onForm f fun p s => (changePedal p (fun r => { r with inhibit := true }) s, .ok)) s

/-- PEDAL UNINHIBIT clears INHIBIT (R91). -/
def execPedalUninhibit (id : Byte) (f : Form Pedal) (s : State) : Out :=
  request (.pedalUninhibit id f) id
    (onForm f fun p s => (changePedal p (fun r => { r with inhibit := false }) s, .ok)) s

/-- ENGAGE_END: action time reaches the engage end of an ENGAGING pedal (R89). -/
def execEngageEnd (p : Pedal) (s : State) : Out :=
  timedEvent ((s.pedal p).phase = .engaging && s.reached (s.pedal p).engageEnd) (endEngage p) s

end Sys2Proof.Machine
end

