-- ==== Sys2Proof/Machine/Performance.lean ====
section
/-!
DEFINITION. START, STOP, PAUSE, PAUSE_POINT_REACHED, RESUME, the cue requests and LOSS_TIMEOUT (R2 to R15).
-/
namespace Sys2Proof.Machine

/-- A detector as START leaves it: closed, with its mask at last line the track's mask flag (R2, R54). -/
def startDetector (e : RouteEntry) : Detector := { closedDetector with maskLast := e.mask }

/-- A START that is taken prepares the blocks for a fresh roll (R2, R53 to R55, R73, R97), and the Route Table held comes into
force (R48). -/
def beginPerformance (s : State) : State :=
  { s with
    perf := { s.perf with state := .armed, stopReason := .none, pausePoint := none }
    intake := { last := none, history := [] }
    reader := { s.reader with
      shift := 0, upRun := 0, downRun := 0, rollMarks := 0
      inForce := s.reader.route.map (·.function)
      detectors := Vector.ofFn fun t => startDetector s.reader.route[t] }
    expr := { s.expr with bass := restRegulator s.expr.shading[16], treble := restRegulator s.expr.shading[16] }
    strike := { s.strike with lastNotes := Vector.replicate 88 none }
    pedals := { sustain := { s.pedals.sustain with lastDown := none }
                soft := { s.pedals.soft with lastDown := none } } }

/-- START (R2). -/
def takeStart (s : State) : State × Result :=
  if s.perf.state ≠ .stopped then (s, .busy)
  else if s.port.profile.isNone then (s, .notReady)
  else if s.probeBusy then (s, .busy)
  else (beginPerformance s, .ok)

/-- START (R2). -/
def execStart (id : Byte) (f : Form Unit) (s : State) : Out :=
  request (.start id f) id (onForm f fun _ => takeStart) s

/-- Probe activity (R4). -/
def State.probeActivity (s : State) : Bool :=
  s.probeBusy || s.sched.queue.any (·.tag.origin == .probe) ||
    s.sched.deferral.any (·.strike.tag.origin == .probe) ||
    allKeys.any fun k => (s.key k).driven || (s.key k).pending.any (·.tag.origin == .probe)

/-- STOP: in STOPPED it acts only on probe activity (R4). -/
def takeStop (s : State) : State :=
  if s.perf.state = .stopped ∧ s.probeActivity = false then s
  else raise .stopped (stopWith .request (cut s))

/-- STOP (R4). -/
def execStop (id : Byte) (f : Form Unit) (s : State) : Out :=
  request (.stop id f) id (onForm f fun _ s => (takeStop s, .ok)) s

/-- PAUSE sets the pause point to the current play time, and PAUSED is entered at once (R12). -/
def takePause (s : State) : State × Result :=
  if s.perf.state = .playing then
    (enterPaused { s with perf := { s.perf with pausePoint := some s.playTime } }, .ok)
  else (s, .busy)

/-- PAUSE (R12). -/
def execPause (id : Byte) (f : Form Unit) (s : State) : Out :=
  request (.pause id f) id (onForm f fun _ => takePause) s

/-- PAUSE_POINT_REACHED (R13). -/
def execPausePointReached (s : State) : Out := timedEvent s.pauseReached enterPaused s

/-- The pending strikes of RESTING keys move onto the Deferral List, in order of fire time, equal fire times in
ascending key number (R15): joined in ascending key order, each after those with an equal fire time. -/
def joinPending (s : State) : State :=
  allKeys.foldl (fun s k =>
    match (s.key k).phase, (s.key k).pending with
    | .resting, some st => joinDeferral k st (updateKey k (fun r => { r with pending := none }) s)
    | _, _ => s) s

/-- A RESUME that is taken (R15). Its PULSEs leave in the order SUSTAIN, SOFT, then the keys the arbiter gives slots to
(DESIGN CHOICE, log 5: the spec gives no order among pedals and keys). A key whose entry the arbiter finds late comes to rest,
and its rest notice changes its snapshot (DEDUCED, log 15). -/
def resumePlaying (s : State) : State :=
  let clock := reacquire .reseed { s with perf := { s.perf with state := .playing } }
  startLossTimer (runArbiter (joinPending (changePedals PedalRec.resumed clock)))

/-- RESUME (R15). -/
def takeResume (s : State) : State × Result :=
  if s.perf.state = .paused then (resumePlaying s, .ok) else (s, .busy)

/-- RESUME (R15). -/
def execResume (id : Byte) (f : Form Unit) (s : State) : Out :=
  request (.resume id f) id (onForm f fun _ => takeResume) s

/-- How many cues the list holds (R1). -/
def cueCapacity : Nat := 8

/-- A line number at its place in ascending order. -/
def insertCue (n : Nat) : List Nat → List Nat
  | [] => [n]
  | x :: xs => if x < n then x :: insertCue n xs else n :: x :: xs

/-- Replace the cue list. -/
def setCues (cues : List Nat) (s : State) : State := { s with perf := { s.perf with cues := cues } }

/-- SET_CUE (R8). -/
def takeSetCue (n : Nat) (s : State) : State × Result :=
  if s.perf.cues.contains n then (s, .ok)
  else if cueCapacity ≤ s.perf.cues.length then (s, .full)
  else (setCues (insertCue n s.perf.cues) s, .ok)

/-- SET_CUE (R8). -/
def execSetCue (id : Byte) (f : Form (BitVec 24)) (s : State) : Out :=
  request (.setCue id f) id (onForm f fun n => takeSetCue n.toNat) s

/-- CLEAR_CUE with a line number (R8). -/
def execClearCue (id : Byte) (f : Form (BitVec 24)) (s : State) : Out :=
  request (.clearCue id f) id
    (onForm f fun n s => (setCues (s.perf.cues.filter (· != n.toNat)) s, .ok)) s

/-- CLEAR_CUE ALL (R8). -/
def execClearCueAll (id : Byte) (f : Form Unit) (s : State) : Out :=
  request (.clearCueAll id f) id (onForm f fun _ s => (setCues [] s, .ok)) s

/-- Loss of the roll source (R7): a pending switch is cancelled, since the base is forced to FREE. -/
def loseSource (s : State) : State :=
  let stopped := stopWith .lost (cut s)
  let free := { stopped with clock := { stopped.clock with base := .free, switch := none } }
  raise .stopped (raise .sourceLost (reacquire free.clock.loop.treatment free))

/-- LOSS_TIMEOUT (R7). -/
def execLossTimeout (s : State) : Out :=
  timedEvent (s.perf.state = .playing && s.reached s.perf.lossTimer) loseSource s

end Sys2Proof.Machine
end

