-- ==== Sys2Proof/Machine/Probes.lean ====
section
/-!
DEFINITION. PROBE and ADAPT (R82, R103, R157, R159).
-/
namespace Sys2Proof.Machine

/-- The serial after another: 65,535 is followed by 1 (R159 step 1). -/
def nextSerial (n : Nat) : Nat := if n = 65535 then 1 else n + 1

/-- The record of a probe at its start (R158, R159 steps 1 and 2). -/
def probeStart (serial : Nat) (k : Key) (hold : Nat) (v : StrikeVals) (now : Nat) : ProbeRec :=
  { busy := true, serial := serial, key := k, intensity := v.intensity, hold := hold, width := v.width,
    leadEff := v.leadEff, cUsed := v.cUsed, fire := now, release := heldTime (now + v.width + hold * 1000),
    result := none, endCause := none, error := none, corrAfter := none }

/-- A probe that is taken, in the order of R159. -/
def beginProbe (k : Key) (intensity hold : Nat) (s : State) : State :=
  let serial := nextSerial s.calib.serial
  let v := s.strikeVals k intensity
  let p := probeStart serial k hold v s.playTime
  let noted := { s with calib := { s.calib with serial := serial, probe := some p } }
  let queued := enqueue ⟨.release k, ⟨.probe, serial⟩, p.release⟩ noted
  strikeReaches k ⟨⟨.probe, serial⟩, v, p.fire, false⟩ queued

/-- PROBE: the answers of R159 in their order, and FULL by R103. -/
def takeProbe (r : RawProbe) (s : State) : State × Result :=
  match keyOf? r.key.toNat with
  | none => (s, .invalid)
  | some k =>
    if s.port.profile.isNone then (s, .notReady)
    else if s.perf.state ≠ .stopped then (s, .busy)
    else if s.probeBusy then (s, .busy)
    else if queueCapacity ≤ s.queueLoad then (s, .full)
    else
      let i := clampNat 1 1000 r.intensity.toNat
      let h := min 2000 r.hold.toNat
      (beginProbe k i h s, loadResult (i != r.intensity.toNat || h != r.hold.toNat))

/-- PROBE (R159). -/
def execProbe (id : Byte) (f : Form RawProbe) (s : State) : Out :=
  request (.probe id f) id (onForm f takeProbe) s

/-- Set global adapt (R157). -/
def setAdapt (on : Bool) (s : State) : State := { s with calib := { s.calib with globalAdapt := on } }

/-- THAW at a key (R157). -/
def KeyRec.thawed (r : KeyRec) : KeyRec :=
  { r with adapt := .active, outlierRun := 0, missedRun := 0, faultFlag := false }

/-- RESET at a key: THAW, and the correction becomes 0 (R157). -/
def KeyRec.adaptReset (r : KeyRec) : KeyRec := { r.thawed with correction := 0 }

/-- An ADAPT action on a key 1 to 88 (R157). -/
def takeAdaptKey (f : KeyRec → KeyRec) (n : Byte) (s : State) : State × Result :=
  match keyOf? n.toNat with
  | some k => (updateKey k f s, .ok)
  | none => (s, .invalid)

/-- ADAPT ON (R157). -/
def execAdaptOn (id : Byte) (f : Form Unit) (s : State) : Out :=
  request (.adaptOn id f) id (onForm f fun _ s => (setAdapt true s, .ok)) s

/-- ADAPT OFF (R157). -/
def execAdaptOff (id : Byte) (f : Form Unit) (s : State) : Out :=
  request (.adaptOff id f) id (onForm f fun _ s => (setAdapt false s, .ok)) s

/-- ADAPT RESET of a key (R157). -/
def execAdaptReset (id : Byte) (f : Form Byte) (s : State) : Out :=
  request (.adaptReset id f) id (onForm f (takeAdaptKey KeyRec.adaptReset)) s

/-- ADAPT RESET ALL (R157). -/
def execAdaptResetAll (id : Byte) (f : Form Unit) (s : State) : Out :=
  request (.adaptResetAll id f) id (onForm f fun _ s => (mapKeys (fun _ r => r.adaptReset) s, .ok)) s

/-- ADAPT THAW of a key (R157). -/
def execAdaptThaw (id : Byte) (f : Form Byte) (s : State) : Out :=
  request (.adaptThaw id f) id (onForm f (takeAdaptKey KeyRec.thawed)) s

end Sys2Proof.Machine
end

