-- ==== Sys2Proof/Machine/Reads.lean ====
section
/-!
DEFINITION. The READ requests (R170, R171).
-/
namespace Sys2Proof.Machine

/-- The data of a READ whose operands passed the form check; INVALID otherwise (R167 step 2). -/
def readForm {α : Type} (f : Form α) (data : α → State → Option (List Byte)) (s : State) : Option (List Byte) :=
  match f with
  | .good a => data a s
  | .bad => none

/-- READ STATUS (R170). -/
def execReadStatus (id : Byte) (f : Form Unit) (s : State) : Out :=
  readRequest (.readStatus id f) id (fun s => s) (readForm f fun _ t => some (statusData t)) s

/-- READ KEY: a key outside 1 to 88 is INVALID (R137, R170). -/
def execReadKey (id : Byte) (f : Form Byte) (s : State) : Out :=
  readRequest (.readKey id f) id (fun s => s) (readForm f fun n t => (keyOf? n.toNat).map (keyData t)) s

/-- Every key's snapshot takes its observed state (R163). -/
def copySnapshots (s : State) : State := mapKeys (fun _ r => { r with snapshot := r.observed }) s

/-- READ KEYS: the observed states, and the snapshots take them (R163). -/
def execReadKeys (id : Byte) (f : Form Unit) (s : State) : Out :=
  readRequest (.readKeys id f) id copySnapshots (readForm f fun _ t => some (keysData t)) s

/-- READ REGULATORS (R55). -/
def execReadRegulators (id : Byte) (f : Form Unit) (s : State) : Out :=
  readRequest (.readRegulators id f) id (fun s => s) (readForm f fun _ t => some (regulatorsData t)) s

/-- READ PEDALS (R86). -/
def execReadPedals (id : Byte) (f : Form Unit) (s : State) : Out :=
  readRequest (.readPedals id f) id (fun s => s) (readForm f fun _ t => some (pedalsData t)) s

/-- READ BOARDS (R149). -/
def execReadBoards (id : Byte) (f : Form Unit) (s : State) : Out :=
  readRequest (.readBoards id f) id (fun s => s) (readForm f fun _ t => some (boardsData t)) s

/-- READ LOOP (R23). -/
def execReadLoop (id : Byte) (f : Form Unit) (s : State) : Out :=
  readRequest (.readLoop id f) id (fun s => s) (readForm f fun _ t => some (loopData t)) s

/-- READ QUEUE (R116). -/
def execReadQueue (id : Byte) (f : Form QueueAt) (s : State) : Out :=
  readRequest (.readQueue id f) id (fun s => s) (readForm f fun q t => some (queueData t q)) s

/-- Every counter becomes 0 (R171). -/
def clearCounters (s : State) : State := { s with mgmt := { s.mgmt with counters := Vector.replicate 14 0 } }

/-- READ COUNTERS: its data stands as before the clearing that its option asks for (R171). -/
def execReadCounters (id : Byte) (f : Form Bool) (s : State) : Out :=
  readRequest (.readCounters id f) id (fun s => if f = .good true then clearCounters s else s)
    (readForm f fun _ _ => some (countersData s)) s

/-- READ TABLE (R171). -/
def execReadTable (id : Byte) (f : Form TableAt) (s : State) : Out :=
  readRequest (.readTable id f) id (fun s => s) (readForm f fun t u => tableData u t) s

/-- READ PROBE (R158). -/
def execReadProbe (id : Byte) (f : Form Unit) (s : State) : Out :=
  readRequest (.readProbe id f) id (fun s => s) (readForm f fun _ t => some (probeData t)) s

end Sys2Proof.Machine
end

