-- ==== Sys2Proof/Machine/Resets.lean ====
section
/-!
DEFINITION. The resets: POWER_ON_RESET, RESET_PERFORMANCE, RESET_FULL and RESET_FULL_EFFECT (R18, R176 to R178).
-/
namespace Sys2Proof.Machine

/-- The power-on values, with what lies outside the part kept: the queue of commands and the record of what has left
(log 4). -/
def powerOn (s : State) : State :=
  { State.reset with
    pending := s.pending
    link := { State.reset.link with
      sentRoll := s.link.sentRoll, sentDrive := s.link.sentDrive, idleCount := s.link.idleCount } }

/-- POWER_ON_RESET (R178): every block at its power-on values, nothing due, both links searching for SYNC. -/
def execPowerOnReset (s : State) : Out := .next (powerOn s)

/-- The effects of RESET PERFORMANCE in the order of R176. -/
def resetPerformance (s : State) : State :=
  let stopped := stopWith .reset (cut s)
  let cleared := { stopped with
    perf := { stopped.perf with cues := [], pausePoint := none }
    reader := { stopped.reader with rollMarks := 0 } }
  let seen := mapKeys (fun _ r => { r with snapshot := r.observed }) cleared
  let withdrawn := withdrawNotice seen
  { withdrawn with mgmt := { withdrawn.mgmt with flags := 0, counters := Vector.replicate 14 0 } }

/-- RESET PERFORMANCE (R18, R176): its response is all it sends. -/
def execResetPerformance (id : Byte) (f : Form Unit) (s : State) : Out :=
  request (.resetPerformance id f) id (onForm f fun _ s => (resetPerformance s, .ok)) s

/-- RESET FULL is answered at once and takes effect when that response has left (R177). -/
def execResetFull (id : Byte) (f : Form Unit) (s : State) : Out :=
  request (.resetFull id f) id
    (onForm f fun _ s => ({ s with mgmt := { s.mgmt with fullReset := .responding } }, .ok)) s

/-- OFF for each driven key and pedal on an enabled board (R98, R136, R177). -/
def fullResetOff (s : State) : List DriveCmd :=
  offKeys (fun k r => r.driven && (s.keyWire k).any fun w => s.boardEnabled w.1) s ++
    offPedals (fun p r => r.driven && (s.pedalWire p).any fun w => s.boardEnabled w.1) s

/-- The effect of RESET FULL (R177). The inbound sides of both links and the frames that wait are not disturbed. -/
def fullReset (s : State) : State :=
  let off := sendAll (fullResetOff s) (withdrawNotice s)
  { powerOn off with
    mgmt := { State.reset.mgmt with outbound := off.mgmt.outbound, waiting := off.mgmt.waiting }
    link := off.link }

/-- RESET_FULL_EFFECT: once the response has left (R177). -/
def execResetFullEffect (s : State) : Out := .next (if s.mgmt.fullReset = .ready then fullReset s else s)

end Sys2Proof.Machine
end

