-- ==== Sys2Proof/Machine/Dispatch.lean ====
section
/-!
DEFINITION. The effect of every command on everything but the queue.
-/
namespace Sys2Proof.Machine

/-- One arm for each row of opcode_table.json. -/
def exec (i : Instr) (s : State) : Host.Outcome State Fault Refusal :=
  match i with
  | .powerOnReset => Sys2Proof.Machine.execPowerOnReset s
  | .scanLine line cells => Sys2Proof.Machine.execScanLine line cells s
  | .rollLinkFrameError c => Sys2Proof.Machine.execRollLinkFrameError c s
  | .unknownRequest id kind => Sys2Proof.Machine.execUnknownRequest id kind s
  | .profile id f => Sys2Proof.Machine.execProfile id f s
  | .loadRoute id f => Sys2Proof.Machine.execLoadRoute id f s
  | .loadDetect id f => Sys2Proof.Machine.execLoadDetect id f s
  | .loadShading id f => Sys2Proof.Machine.execLoadShading id f s
  | .loadCurve id f => Sys2Proof.Machine.execLoadCurve id f s
  | .loadVoicing id f => Sys2Proof.Machine.execLoadVoicing id f s
  | .loadCalibration id f => Sys2Proof.Machine.execLoadCalibration id f s
  | .loadTiming id f => Sys2Proof.Machine.execLoadTiming id f s
  | .loadAdaptParam id f => Sys2Proof.Machine.execLoadAdaptParam id f s
  | .maskSet id f => Sys2Proof.Machine.execMaskSet id f s
  | .maskClear id f => Sys2Proof.Machine.execMaskClear id f s
  | .start id f => Sys2Proof.Machine.execStart id f s
  | .stop id f => Sys2Proof.Machine.execStop id f s
  | .pause id f => Sys2Proof.Machine.execPause id f s
  | .pausePointReached => Sys2Proof.Machine.execPausePointReached s
  | .resume id f => Sys2Proof.Machine.execResume id f s
  | .setCue id f => Sys2Proof.Machine.execSetCue id f s
  | .clearCue id f => Sys2Proof.Machine.execClearCue id f s
  | .clearCueAll id f => Sys2Proof.Machine.execClearCueAll id f s
  | .timebaseFree id f => Sys2Proof.Machine.execTimebaseFree id f s
  | .timebaseLine id f => Sys2Proof.Machine.execTimebaseLine id f s
  | .loopOn id f => Sys2Proof.Machine.execLoopOn id f s
  | .loopOff id f => Sys2Proof.Machine.execLoopOff id f s
  | .pedalAssert id f => Sys2Proof.Machine.execPedalAssert id f s
  | .pedalDeassert id f => Sys2Proof.Machine.execPedalDeassert id f s
  | .pedalInhibit id f => Sys2Proof.Machine.execPedalInhibit id f s
  | .pedalUninhibit id f => Sys2Proof.Machine.execPedalUninhibit id f s
  | .probe id f => Sys2Proof.Machine.execProbe id f s
  | .adaptOn id f => Sys2Proof.Machine.execAdaptOn id f s
  | .adaptOff id f => Sys2Proof.Machine.execAdaptOff id f s
  | .adaptReset id f => Sys2Proof.Machine.execAdaptReset id f s
  | .adaptResetAll id f => Sys2Proof.Machine.execAdaptResetAll id f s
  | .adaptThaw id f => Sys2Proof.Machine.execAdaptThaw id f s
  | .boardEnable id f => Sys2Proof.Machine.execBoardEnable id f s
  | .boardDisable id f => Sys2Proof.Machine.execBoardDisable id f s
  | .readStatus id f => Sys2Proof.Machine.execReadStatus id f s
  | .readKey id f => Sys2Proof.Machine.execReadKey id f s
  | .readKeys id f => Sys2Proof.Machine.execReadKeys id f s
  | .readRegulators id f => Sys2Proof.Machine.execReadRegulators id f s
  | .readPedals id f => Sys2Proof.Machine.execReadPedals id f s
  | .readBoards id f => Sys2Proof.Machine.execReadBoards id f s
  | .readLoop id f => Sys2Proof.Machine.execReadLoop id f s
  | .readQueue id f => Sys2Proof.Machine.execReadQueue id f s
  | .readCounters id f => Sys2Proof.Machine.execReadCounters id f s
  | .readTable id f => Sys2Proof.Machine.execReadTable id f s
  | .readProbe id f => Sys2Proof.Machine.execReadProbe id f s
  | .clear id f => Sys2Proof.Machine.execClear id f s
  | .notices id f => Sys2Proof.Machine.execNotices id f s
  | .resetPerformance id f => Sys2Proof.Machine.execResetPerformance id f s
  | .resetFull id f => Sys2Proof.Machine.execResetFull id f s
  | .resetFullEffect => Sys2Proof.Machine.execResetFullEffect s
  | .responseSend => Sys2Proof.Machine.execResponseSend s
  | .noticeSend => Sys2Proof.Machine.execNoticeSend s
  | .lossTimeout => Sys2Proof.Machine.execLossTimeout s
  | .dispatch => Sys2Proof.Machine.execDispatch s
  | .pulseEnd key => Sys2Proof.Machine.execPulseEnd key s
  | .holdLimit key => Sys2Proof.Machine.execHoldLimit key s
  | .returnTimer key => Sys2Proof.Machine.execReturnTimer key s
  | .engageEnd pedal => Sys2Proof.Machine.execEngageEnd pedal s
  | .strikeReport board channel measured => Sys2Proof.Machine.execStrikeReport board channel measured s
  | .restReport board channel => Sys2Proof.Machine.execRestReport board channel s
  | .faultReport board reason => Sys2Proof.Machine.execFaultReport board reason s
  | .strayReport => Sys2Proof.Machine.execStrayReport s

end Sys2Proof.Machine
end

