-- ==== Sys2Proof/Machine/Idle.lean ====
section
/-!
DEFINITION. What the part does on an empty command queue (DESIGN CHOICE, log 1): an event of its own that is due, a
frame that leaves, a frame that waited, a frame that stands in the received bytes; or a microsecond passes.
-/
namespace Sys2Proof.Machine

/-- One thing that can happen on an empty queue. -/
inductive IdleEvent where
  /-- An event of the part's own: a row of opcode_table.json. -/
  | own (c : Instr)
  /-- The first frame that waited for a RESET FULL is taken (R177). -/
  | waiting
  /-- The received Roll Link bytes make a frame (R165). -/
  | rollFrame
  /-- The received Action Link bytes make a frame (R183). -/
  | actionFrame
  /-- A microsecond passes (R19). -/
  | tick
  deriving DecidableEq, Repr

/-- Whether a command is a request of the Roll Link (R180). -/
def isRequest : Instr → Bool
  | .powerOnReset | .scanLine .. | .rollLinkFrameError _ | .pausePointReached | .resetFullEffect | .responseSend
  | .noticeSend | .lossTimeout | .dispatch | .pulseEnd _ | .holdLimit _ | .returnTimer _ | .engageEnd _
  | .strikeReport .. | .restReport .. | .faultReport .. | .strayReport => false
  | _ => true

/-- A command, if its time has come. -/
def whenDue (due : Bool) (c : Instr) : List Instr := if due then [c] else []

/-- The timed events of a key that are due (R123, R126, R129). -/
def keyEvents (k : Key) (s : State) : List Instr :=
  whenDue ((s.key k).phase = .striking && s.reached (s.key k).pulseEnd) (.pulseEnd k) ++
    whenDue ((s.key k).phase = .held && s.reached (s.key k).holdLimit) (.holdLimit k) ++
    whenDue ((s.key k).phase = .releasing && s.reached ((s.key k).returnTimer.map (·.1))) (.returnTimer k)

/-- The timed events that are due (R7, R13, R89, R104, R123, R126, R129). -/
def timedEvents (s : State) : List Instr :=
  whenDue s.pauseReached .pausePointReached ++ whenDue s.headDue .dispatch ++
    whenDue (s.perf.state = .playing && s.reached s.perf.lossTimer) .lossTimeout ++
    allKeys.flatMap (fun k => keyEvents k s) ++
    allPedals.flatMap fun p =>
      whenDue ((s.pedal p).phase = .engaging && s.reached (s.pedal p).engageEnd) (.engageEnd p)

/-- The frame at the head of those due can leave (R166). -/
def sendEvents (s : State) : List Instr :=
  match s.mgmt.outbound with
  | .response .. :: _ => [.responseSend]
  | .notice :: _ => [.noticeSend]
  | [] => []

/-- Whether the first frame that waited can be taken: the RESET FULL is over, and a request finds room for its
response (R166, R177; log 10). -/
def State.waitingReady (s : State) : Bool :=
  match s.mgmt.waiting with
  | c :: _ => s.mgmt.fullReset = .none && (!isRequest c || s.responsesDue < 4)
  | [] => false

/-- Whether received bytes make a frame. -/
def Assembled.complete : Assembled → Bool
  | .more => false
  | .frame .. => true

/-- Everything that can happen on an empty queue. Time does not pass an event that is due, and a RESET FULL takes
effect as soon as its response has left (R177). -/
def idleEvents (s : State) : List IdleEvent :=
  if s.mgmt.fullReset = .ready then [.own .resetFullEffect]
  else
    (timedEvents s ++ sendEvents s).map .own ++
      (if s.waitingReady then [.waiting] else []) ++
      (if Assembled.complete (assembleRoll s.link.rollRx) then [.rollFrame] else []) ++
      (if Assembled.complete (assembleAction s.link.actionRx) then [.actionFrame] else []) ++
      (if (timedEvents s).isEmpty then [.tick] else [])

/-- The first frame that waited is taken; the others go on waiting behind it (R177). -/
def takeWaiting (s : State) : Out :=
  match s.mgmt.waiting with
  | c :: rest =>
    match exec c { s with mgmt := { s.mgmt with waiting := [] } } with
    | .next t => .next { t with mgmt := { t.mgmt with waiting := rest } }
    | .fault r => .fault r
    | .refused r => .refused r
  | [] => .next s

/-- Replace the received bytes of the Roll Link. -/
def setRollRx (bytes : List Byte) (s : State) : State := { s with link := { s.link with rollRx := bytes } }

/-- Replace the received bytes of the Action Link. -/
def setActionRx (bytes : List Byte) (s : State) : State := { s with link := { s.link with actionRx := bytes } }

/-- A frame is taken from the received Roll Link bytes. One that fails a check, the backlog's among them, costs only
its SYNC byte: the search resumes behind it (R165). -/
def takeRollFrame (s : State) : Out :=
  match assembleRoll s.link.rollRx with
  | .frame (.rollLinkFrameError check) _ afterSync =>
    exec (.rollLinkFrameError check) (setRollRx afterSync s)
  | .frame c afterFrame afterSync =>
    if isRequest c && 4 ≤ s.responsesDue then exec (.rollLinkFrameError .backlog) (setRollRx afterSync s)
    else exec c (setRollRx afterFrame s)
  | .more => .next s

/-- Whether a board's frame is discarded as stray (R143). -/
def State.discards (s : State) : Instr → Bool
  | .strikeReport board channel _ | .restReport board channel => (s.reportKey board channel).isNone
  | .faultReport board _ => (s.presentBoard board).isNone
  | _ => true

/-- A frame is taken from the received Action Link bytes; after a discarded one the search resumes behind its SYNC
(R183). -/
def takeActionFrame (s : State) : Out :=
  match assembleAction s.link.actionRx with
  | .frame c afterFrame afterSync => exec c (setActionRx (if s.discards c then afterSync else afterFrame) s)
  | .more => .next s

/-- Take one of the things that can happen. -/
def takeIdle (e : IdleEvent) (s : State) : Out :=
  match e with
  | .own c => exec c s
  | .waiting => takeWaiting s
  | .rollFrame => takeRollFrame s
  | .actionFrame => takeActionFrame s
  | .tick => .next (tick s)

/-- Count a choice made. -/
def countIdle (s : State) : State := { s with link := { s.link with idleCount := s.link.idleCount + 1 } }

/-- The empty queue: the only thing that can happen does, or the free value picks one of several (log 1). -/
def idle (s : State) : Out :=
  match idleEvents s with
  | [] => .next s
  | [e] => takeIdle e s
  | es => takeIdle (es.getD (Config.idleChoice s.link.idleCount % es.length) .tick) (countIdle s)

end Sys2Proof.Machine
end

