-- ==== Sys2Proof/Safety.lean ====
section
/-!
DEFINITION. The words of the statements: when a request is taken at once, what every event leaves settled, what becomes
due as an event ends, and the invariants.
-/
namespace Sys2Proof.Machine

/-! ### When a request is taken at once, and what it makes due -/

/-- A request that arrives is taken at once: fewer than four responses are due (R165), and no RESET FULL holds frames
back (R177). -/
def State.ready (s : State) : Prop := s.responsesDue < 4 ∧ s.mgmt.fullReset = .none ∧ s.mgmt.waiting = []

/-- Between events: DRAINING is not over (R17), and a key in mismatch has TOUCH set (R163). -/
def State.settled (s : State) : Prop :=
  (s.perf.state = .draining → s.drained = false) ∧ (s.anyMismatch = true → s.flag .touch = true)

/-- Frames become due behind those that are due. -/
def State.nowDue (s : State) (frames : List OutFrame) : State :=
  { s with mgmt := { s.mgmt with outbound := s.mgmt.outbound ++ frames } }

/-- The notice an event gives cause for: one, if a flag that was clear is set and enabled and no notice is due
(R166, R173). -/
def noticeFor (old : BitVec 16) (s : State) : List OutFrame :=
  if s.mgmt.flags &&& ~~~old &&& s.mgmt.enables ≠ 0 ∧ .notice ∉ s.mgmt.outbound then [.notice] else []

/-- An event that found the flags `old` and led to s is over. -/
def State.ended (s : State) (old : BitVec 16) : State := s.nowDue (noticeFor old s)

/-- A request that found the flags `old` and led to s is answered: the response, and behind it any notice (R166). -/
def State.replied (s : State) (old : BitVec 16) (id : Byte) (r : Result) (data : List Byte := []) : State :=
  s.nowDue (.response id r data :: noticeFor old s)

/-- A request whose operands are not of the form its kind requires, with its id (R167 step 2). -/
def malformedId : Instr → Option Byte
  | .profile id .bad | .loadRoute id .bad | .loadDetect id .bad | .loadShading id .bad | .loadCurve id .bad
  | .loadVoicing id .bad | .loadCalibration id .bad | .loadTiming id .bad | .loadAdaptParam id .bad
  | .maskSet id .bad | .maskClear id .bad | .start id .bad | .stop id .bad | .pause id .bad | .resume id .bad
  | .setCue id .bad | .clearCue id .bad | .clearCueAll id .bad | .timebaseFree id .bad | .timebaseLine id .bad
  | .loopOn id .bad | .loopOff id .bad | .pedalAssert id .bad | .pedalDeassert id .bad | .pedalInhibit id .bad
  | .pedalUninhibit id .bad | .probe id .bad | .adaptOn id .bad | .adaptOff id .bad | .adaptReset id .bad
  | .adaptResetAll id .bad | .adaptThaw id .bad | .boardEnable id .bad | .boardDisable id .bad
  | .readStatus id .bad | .readKey id .bad | .readKeys id .bad | .readRegulators id .bad | .readPedals id .bad
  | .readBoards id .bad | .readLoop id .bad | .readQueue id .bad | .readCounters id .bad | .readTable id .bad
  | .readProbe id .bad | .clear id .bad | .notices id .bad | .resetPerformance id .bad | .resetFull id .bad => some id
  | _ => none

/-! ### What a pedal and a cut key become -/

/-- The table of R88: what becomes of a pedal that is now commanded down or up, and what is sent to it. -/
def PedalRec.follows (r : PedalRec) (down : Bool) (width engageEnd : Nat) : PedalRec × Option DriveAction :=
  match r.phase, down with
  | .up, true => ({ r with phase := .engaging, relWait := false, engageEnd := some engageEnd }, some (.pulse width))
  | .engaging, true => ({ r with relWait := false }, none)
  | .engaging, false => ({ r with relWait := true }, none)
  | .down, false => ({ r with phase := .up }, some .off)
  | .up, false | .down, true => (r, none)

/-- Whether the sources of r command the pedal down (R87). -/
def State.commands (s : State) (p : Pedal) (r : PedalRec) : Bool :=
  (s.pedalWire p).any (fun w => s.boardEnabled w.1) && !r.inhibit && (r.roll || r.manual)

/-- What a pedal whose sources become those of r becomes, and what is sent to it (R87, R88). -/
def State.pedalTakes (s : State) (p : Pedal) (r : PedalRec) : PedalRec × Option DriveAction :=
  r.follows (s.commands p r) (s.engageWidth p) (s.expiry (s.engageWidth p))

/-- The drive commands of both pedals, SUSTAIN first, as their sources change (R88). -/
def State.pedalSends (s : State) (f : PedalRec → PedalRec) : List DriveCmd :=
  allPedals.filterMap fun p => (s.pedalTakes p (f (s.pedal p))).2.bind fun a => driveCmd (s.pedalWire p) a

/-! ### Loads -/

/-- A load of 1 entry or more that addresses no index beyond a table of n (R168). -/
abbrev loadFits {α : Type} (n : Nat) (l : Load α) : Prop := l.entries ≠ [] ∧ l.first.toNat + l.entries.length ≤ n

/-- The loaded values, each clamped to the range of the index it addresses. -/
def loadValues {w : Nat} (range : Nat → Nat × Nat) (l : Load (BitVec w)) : List Nat :=
  l.entries.mapIdx fun i v =>
    max (range (l.first.toNat + i)).1 (min (range (l.first.toNat + i)).2 v.toNat)

/-- CLAMPED if clamping changed some value, OK if none (R168). -/
def loadAnswer {α : Type} [DecidableEq α] (given clamped : List α) : Result :=
  if clamped = given then .ok else .clamped

/-- The table a load of unsigned values leaves, and its answer. -/
def loadTakes {w n : Nat} (range : Nat → Nat × Nat) (held : Vector Nat n) (l : Load (BitVec w)) :
    Vector Nat n × Result :=
  (Vector.ofFn fun i =>
      if l.first.toNat ≤ i.val ∧ i.val < l.first.toNat + l.entries.length then
        (loadValues range l).getD (i.val - l.first.toNat) 0
      else held[i],
    loadAnswer (l.entries.map BitVec.toNat) (loadValues range l))

/-! ### What every step keeps -/

/-- Flags, counters and frames due: the state is settled; at most four responses and one notice are due (R165, R166); bit
15 of the flags is clear (R180); no counter passes 65,535 (R175); a RESET FULL that has been answered and not yet begun
has its response due (R177). -/
def State.managementSound (s : State) : Prop :=
  s.settled ∧ s.responsesDue ≤ 4 ∧ (s.mgmt.outbound.filter (! ·.isResponse)).length ≤ 1 ∧
    s.mgmt.flags.getLsbD 15 = false ∧ (∀ c, s.counter c ≤ 65535) ∧
    (s.mgmt.fullReset = .responding → 0 < s.responsesDue)

/-- Performance Control, the clocks and the loop: the loss timer runs exactly in PLAYING (R6), a pause point is held only
there, the cues stand in ascending order and number at most 8 (R1); play time does not pass action time (R20); no switch
is pending in STOPPED (R33); LINE in force or pending keeps the loop running (R25); LOCKED implies TRACKING (R30); the runs
and P_est stay in their ranges (R23, R27); outside STOPPED the functions in force are those of the Route Table (R48). -/
def State.performanceSound (s : State) : Prop :=
  (s.perf.lossTimer ≠ none ↔ s.perf.state = .playing) ∧ (s.perf.pausePoint ≠ none → s.perf.state = .playing) ∧
    s.perf.cues.Pairwise (· < ·) ∧ s.perf.cues.length ≤ 8 ∧
    s.clock.pausedTotal ≤ s.clock.actionTime ∧ s.clock.actionTime ≤ maxTime ∧
    (s.perf.state = .stopped → s.clock.switch = none) ∧
    (s.clock.base = .line ∨ s.clock.switch = some .line → s.clock.loop.mode ≠ .off) ∧
    (s.clock.loop.locked = true → s.clock.loop.mode = .tracking) ∧
    (s.clock.loop.mode = .off → s.clock.loop.goodRun = 0 ∧ s.clock.loop.badRun = 0) ∧
    (s.clock.loop.mode = .acquiring → s.clock.loop.goodRun < 16 ∧ s.clock.loop.badRun = 0) ∧
    (s.clock.loop.mode = .tracking → s.clock.loop.goodRun ≤ 32 ∧ s.clock.loop.badRun < 4) ∧
    (s.clock.loop.mode ≠ .off → s.clock.timing[0] * 224 ≤ s.clock.loop.pEst ∧ s.clock.loop.pEst ≤ s.clock.timing[0] * 288) ∧
    (s.perf.state ≠ .stopped → s.reader.inForce = s.reader.route.map (·.function))

/-- How many keys and pedals hold an owed tag. -/
def State.owedTags (s : State) : Nat :=
  (allKeys.filter fun k => (s.key k).owed.isSome).length + (allPedals.filter fun p => (s.pedal p).owed.isSome).length

/-- The Fire Queue stands in nondecreasing order of fire time (R99), and its records and the owed releases together never
exceed 256 (R101); every owed tag has its owed release. -/
def State.queueSound (s : State) : Prop :=
  s.sched.queue.Pairwise (fun x y => x.fire ≤ y.fire) ∧ s.sched.queue.length + s.sched.owed ≤ 256 ∧
    s.owedTags ≤ s.sched.owed

/-- How many keys that satisfy a condition are STRIKING. -/
def State.striking (s : State) (c : Key → Bool) : Nat :=
  (allKeys.filter fun k => c k && (s.key k).phase = .striking).length

/-- Whether a Deferral List entry could be given a slot. -/
def State.grantable (s : State) (e : DeferralEntry) : Bool := s.keyBoardFree e.key && s.totalFree

/-- The Key Table, the Deferral List and the slots: a key is OFFLINE exactly when it is on no board in service; each
timer runs exactly in its phase (R117); the list stands in order of fire time with one entry for each DEFERRED key and its
current tag (R109); each in-flight count is the number of STRIKING keys and within its limit (R106); a pending strike
rests only in PAUSED; outside PAUSED no entry could be given a slot (R107). -/
def State.keysAgree (s : State) : Prop :=
  (∀ k, (s.key k).phase = .offline ↔ (s.keyWire k).any (fun w => s.boardEnabled w.1) = false) ∧
    (∀ k, ((s.key k).pulseEnd ≠ none ↔ (s.key k).phase = .striking) ∧
      ((s.key k).holdLimit ≠ none ↔ (s.key k).phase = .held) ∧
      ((s.key k).returnTimer ≠ none ↔ (s.key k).phase = .releasing)) ∧
    s.sched.deferral.Pairwise (fun x y => x.strike.fire ≤ y.strike.fire ∧ x.key ≠ y.key) ∧
    (∀ k, (s.key k).phase = .deferred ↔ ∃ e ∈ s.sched.deferral, e.key = k) ∧
    (∀ e ∈ s.sched.deferral, (s.key e.key).current = some e.strike.tag) ∧
    (∀ b, (s.board b).inFlight = s.striking (s.keyOnBoard · b) ∧ (s.board b).inFlight ≤ s.boardLimit b) ∧
    s.sched.total = s.striking (fun _ => true) ∧ s.sched.total ≤ s.totalLimit ∧
    (∀ k, (s.key k).pending ≠ none →
      (s.key k).phase ≠ .offline ∧ ((s.key k).phase = .resting → s.perf.state = .paused)) ∧
    (s.perf.state ≠ .paused → ∀ e ∈ s.sched.deferral, s.grantable e = false)

/-- The pedals: the table of R87, and the engage end runs exactly in ENGAGING. -/
def State.pedalsAgree (s : State) : Prop :=
  ∀ p, s.commandedDown p = (s.pedal p).towardDown ∧ ((s.pedal p).relWait = true → (s.pedal p).phase = .engaging) ∧
    ((s.pedal p).engageEnd ≠ none ↔ (s.pedal p).phase = .engaging)

end Sys2Proof.Machine
end

