-- ==== Sys2Proof/Certificates/Slice0/Obligations.lean ====
section
/-!
DEFINITION. The statements for the provers.
-/

open Sys2Proof Sys2Proof.Machine

/-! ### The machine -/

/-- A step takes the command at the front of the queue and runs it on the queue's rest. -/
def Obligations.StepRunsTheFrontCommand : Prop :=
  ∀ (c : Instr) (rest : List Instr) (s : State),
    s.pending = c :: rest → step s = exec c { s with pending := rest }

/-- On an empty queue the part runs by itself: the one thing that can happen happens; of several, one does. This is the
model's choice (log 1). What can happen: each timed event exactly when it is due (R7, R13, R89, R104, R123, R126, R129),
the due frame at the head (R166), a received frame of either link once its bytes make one (R165, R183), a frame that
waited for a RESET FULL once that is over and a request finds room (R177, log 10), and the passing of a microsecond
exactly when no timed event is due; once the response of a RESET FULL has left, its effect alone. The passing of a
microsecond moves action time until it stands at its maximum, and with it the paused total in PAUSED only, so that play
time moves outside PAUSED and stands still in it (R19, R20). -/
def Obligations.EmptyQueueTakesAnEventOfItsOwn : Prop :=
  (∀ s : State, s.pending = [] →
    (∀ e, idleEvents s = [e] → step s = takeIdle e s) ∧
      ∃ e ∈ idleEvents s, step s = takeIdle e s ∨ step s = takeIdle e (countIdle s)) ∧
  (∀ s : State,
    let passed (at? : Option Nat) (now : Nat) : Prop := ∃ t, at? = some t ∧ t ≤ now
    let now := s.clock.actionTime
    let due (c : Instr) : Prop := match c with
      | .pausePointReached => s.perf.state = .playing ∧ passed s.perf.pausePoint s.playTime
      | .lossTimeout => s.perf.state = .playing ∧ passed s.perf.lossTimer now
      | .dispatch => s.perf.state ≠ .paused ∧ passed (s.sched.queue.head?.map (·.fire)) s.playTime
      | .pulseEnd k => (s.key k).phase = .striking ∧ passed (s.key k).pulseEnd now
      | .holdLimit k => (s.key k).phase = .held ∧ passed (s.key k).holdLimit now
      | .returnTimer k => (s.key k).phase = .releasing ∧ passed ((s.key k).returnTimer.map (·.1)) now
      | .engageEnd p => (s.pedal p).phase = .engaging ∧ passed (s.pedal p).engageEnd now
      | _ => False
    let leaves (c : Instr) : Prop := match c with
      | .responseSend => ∃ id r data rest, s.mgmt.outbound = .response id r data :: rest
      | .noticeSend => ∃ rest, s.mgmt.outbound = .notice :: rest
      | _ => False
    (s.mgmt.fullReset = .ready → idleEvents s = [.own .resetFullEffect]) ∧
    (s.mgmt.fullReset ≠ .ready →
      (∀ c, .own c ∈ idleEvents s ↔ due c ∨ leaves c) ∧
      (.waiting ∈ idleEvents s ↔ s.mgmt.fullReset = .none ∧
        ∃ c rest, s.mgmt.waiting = c :: rest ∧ (isRequest c = true → s.responsesDue < 4)) ∧
      (.rollFrame ∈ idleEvents s ↔ ∃ c afterFrame afterSync, assembleRoll s.link.rollRx = .frame c afterFrame afterSync) ∧
      (.actionFrame ∈ idleEvents s ↔
        ∃ c afterFrame afterSync, assembleAction s.link.actionRx = .frame c afterFrame afterSync) ∧
      (.tick ∈ idleEvents s ↔ ∀ c, ¬due c))) ∧
  ∀ s : State,
    let moved (paused : Nat) : State := { s with clock := { s.clock with
      actionTime := s.clock.actionTime + 1, pausedTotal := s.clock.pausedTotal + paused } }
    (∀ c, takeIdle (.own c) s = exec c s) ∧
    countIdle s = { s with link := { s.link with idleCount := s.link.idleCount + 1 } } ∧
    s.playTime = s.clock.actionTime - s.clock.pausedTotal ∧ takeIdle .tick s = .next (tick s) ∧
    (s.clock.actionTime < 281474976710655 → s.perf.state = .paused → tick s = moved 1) ∧
    (s.clock.actionTime < 281474976710655 → s.perf.state ≠ .paused → tick s = moved 0) ∧
    (281474976710655 ≤ s.clock.actionTime → tick s = s) ∧
    (s.perf.state = .paused → (tick s).playTime = s.playTime) ∧
    (s.perf.state ≠ .paused → s.clock.actionTime < 281474976710655 → s.clock.pausedTotal ≤ s.clock.actionTime →
      (tick s).playTime = s.playTime + 1)

/-- Every command, and so every step, answers a next state. -/
def Obligations.EveryStepAnswersNext : Prop :=
  (∀ (c : Instr) (s : State), ∃ t, exec c s = .next t) ∧ ∀ s : State, ∃ t, step s = .next t

/-! ### Requests as a whole -/

/-- A request whose operands are not of the form of its kind is answered INVALID and changes nothing (R167 step 2). That
this holds of a malformed PROFILE also where a profile is written, so that the form check precedes ONCE (R169), is the
model's choice (log 12). -/
def Obligations.MalformedRequestIsInvalid : Prop :=
  ∀ (c : Instr) (id : Byte) (s : State), s.ready → s.settled → malformedId c = some id →
    exec c s = .next (s.nowDue [.response id .invalid []])

/-- A request of a kind not in the table is answered UNKNOWN, nothing changes, and LINK_ERROR is not set (R167). What
the bytes of every other kind ask (R180): the kind and its option byte give the command, the bytes behind them its
operands; the wrong length, an option byte that is not listed, or a field that must be 0 and is not, is a bad form. The
entries of each of the eight LOAD encodings, whose bytes must amount to the count (R168, R181). The 215 bytes of a
PROFILE (R181): where each field stands, the stated sets, and the bits and bytes that must be 0. -/
def Obligations.UnknownKindIsAnsweredUnknown : Prop :=
  (∀ (id kind : Byte) (s : State), s.ready → s.settled →
    exec (.unknownRequest id kind) s = .next (s.nowDue [.response id .unknown []])) ∧
  (∀ (id : Byte) (ops : List Byte),
    let none (l : List Byte) : Form Unit := if l = [] then .good () else .bad
    let zeros (n : Nat) (l : List Byte) : Form Unit := if l = List.replicate n 0 then .good () else .bad
    let one (l : List Byte) : Form Byte := match l with | [a] => .good a | _ => .bad
    let line (l : List Byte) : Form (BitVec 24) := match l with | [a, b, c] => .good (a ++ b ++ c) | _ => .bad
    let set (l : List Byte) : Form (BitVec 16) :=
      match l with | [a, b] => if a.getLsbD 7 then .bad else .good (a ++ b) | _ => .bad
    let tracks (l : List Byte) : Form (List Byte) := match l with
      | n :: listed => if n.toNat ≤ 112 ∧ listed.length = n.toNat then .good listed else .bad
      | [] => .bad
    let pedal (a : Byte) : Form Pedal := if a = 0 then .good .sustain else if a = 1 then .good .soft else .bad
    let made (kind : Byte) (l : List Byte) (c : Instr) : Prop := parseKind id kind l = c
    let bad (kind : Byte) (l : List Byte) : Prop := malformedId (parseKind id kind l) = some id
    (∀ kind : Byte, kind = 0 ∨ 0x13 < kind.toNat → made kind ops (.unknownRequest id kind)) ∧
    (made 0x03 (0 :: ops) (.maskSet id (tracks ops)) ∧ made 0x03 (1 :: ops) (.maskClear id (tracks ops)) ∧
      made 0x04 ops (.start id (none ops)) ∧ made 0x05 ops (.stop id (none ops)) ∧
      made 0x06 ops (.pause id (none ops)) ∧ made 0x07 ops (.resume id (none ops)) ∧
      made 0x08 ops (.setCue id (line ops)) ∧ made 0x09 (0 :: ops) (.clearCue id (line ops)) ∧
      made 0x09 (1 :: ops) (.clearCueAll id (zeros 3 ops)) ∧ made 0x0A (0 :: ops) (.timebaseFree id (none ops)) ∧
      made 0x0A (1 :: ops) (.timebaseLine id (none ops)) ∧ made 0x0B (0 :: ops) (.loopOff id (none ops)) ∧
      made 0x0B (1 :: ops) (.loopOn id (none ops)) ∧
      (∀ p, made 0x0C [p, 0] (.pedalAssert id (pedal p)) ∧ made 0x0C [p, 1] (.pedalDeassert id (pedal p)) ∧
        made 0x0C [p, 2] (.pedalInhibit id (pedal p)) ∧ made 0x0C [p, 3] (.pedalUninhibit id (pedal p))) ∧
      (∀ k i1 i0 h1 h0, made 0x0D [k, i1, i0, h1, h0] (.probe id (.good ⟨k, i1 ++ i0, h1 ++ h0⟩))) ∧
      made 0x0E (0 :: ops) (.adaptOn id (zeros 1 ops)) ∧ made 0x0E (1 :: ops) (.adaptOff id (zeros 1 ops)) ∧
      made 0x0E (2 :: ops) (.adaptReset id (one ops)) ∧ made 0x0E (3 :: ops) (.adaptResetAll id (zeros 1 ops)) ∧
      made 0x0E (4 :: ops) (.adaptThaw id (one ops)) ∧
      (∀ b, made 0x0F [b, 0] (.boardEnable id (.good b)) ∧ made 0x0F [b, 1] (.boardDisable id (.good b))) ∧
      made 0x11 ops (.clear id (set ops)) ∧ made 0x12 ops (.notices id (set ops)) ∧
      made 0x13 (0 :: ops) (.resetPerformance id (none ops)) ∧ made 0x13 (1 :: ops) (.resetFull id (none ops))) ∧
    (made 0x10 (0 :: ops) (.readStatus id (none ops)) ∧ made 0x10 (1 :: ops) (.readKey id (one ops)) ∧
      made 0x10 (2 :: ops) (.readKeys id (none ops)) ∧ made 0x10 (3 :: ops) (.readRegulators id (none ops)) ∧
      made 0x10 (4 :: ops) (.readPedals id (none ops)) ∧ made 0x10 (5 :: ops) (.readBoards id (none ops)) ∧
      made 0x10 (6 :: ops) (.readLoop id (none ops)) ∧ made 0x10 (10 :: ops) (.readProbe id (none ops)) ∧
      (∀ fire deferral, made 0x10 [7, fire, deferral] (.readQueue id (.good ⟨fire, deferral⟩))) ∧
      made 0x10 [8, 0] (.readCounters id (.good false)) ∧ made 0x10 [8, 1] (.readCounters id (.good true)) ∧
      (∀ table f1 f0 count, count ≠ 0 → made 0x10 [9, table, f1, f0, count] (.readTable id (.good ⟨table, f1 ++ f0, count⟩)))) ∧
    (∀ kind ∈ ([0x02, 0x03, 0x09, 0x0A, 0x0B, 0x0C, 0x0E, 0x0F, 0x10, 0x13] : List Byte), bad kind []) ∧
    (∀ a : Byte, (∀ kind ∈ ([0x03, 0x09, 0x0A, 0x0B, 0x13] : List Byte), 1 < a.toNat → bad kind (a :: ops)) ∧
      (4 < a.toNat → bad 0x0E (a :: ops)) ∧ (10 < a.toNat → bad 0x10 (a :: ops)) ∧
      (a = 0 ∨ 8 < a.toNat ∨ ops.length < 3 → bad 0x02 (a :: ops)) ∧ (∀ p, 3 < a.toNat → bad 0x0C [p, a]) ∧
      ∀ b, 1 < a.toNat → bad 0x0F [b, a]) ∧
    (ops.length ≠ 2 → bad 0x0C ops ∧ bad 0x0F ops ∧ bad 0x10 (7 :: ops)) ∧ (ops.length ≠ 5 → bad 0x0D ops) ∧
    (ops ≠ [0] → ops ≠ [1] → bad 0x10 (8 :: ops)) ∧ (ops.length ≠ 4 → bad 0x10 (9 :: ops)) ∧
    (∀ table f1 f0, bad 0x10 [9, table, f1, f0, 0])) ∧
  (∀ id : Byte,
    let loads {α : Type} (table : Byte) (size : Nat) (bytesOf : α → List Byte) (row : Form (Load α) → Instr) : Prop :=
      ∀ f1 f0 count : Byte,
        (∀ entries : List α, entries.length = count.toNat →
          parseKind id 0x02 (table :: f1 :: f0 :: count :: entries.flatMap bytesOf) = row (.good ⟨f1 ++ f0, entries⟩)) ∧
        ∀ bytes : List Byte, bytes.length ≠ count.toNat * size →
          parseKind id 0x02 (table :: f1 :: f0 :: count :: bytes) = row .bad
    let b2 (w : BitVec 16) : List Byte := [w.extractLsb' 8 8, w.extractLsb' 0 8]
    let point (p : RawPoint) : List Byte := b2 p.intensity ++ b2 p.width ++ b2 p.lead
    loads 1 3 (fun e : RawRoute => [e.function, e.parameter, e.mask]) (.loadRoute id) ∧
      loads 2 1 (fun e => [e]) (.loadDetect id) ∧ loads 3 2 b2 (.loadShading id) ∧ loads 4 2 b2 (.loadCurve id) ∧
      loads 5 2 b2 (.loadVoicing id) ∧
      loads 6 26 (fun e : RawCal => point e.p0 ++ point e.p1 ++ point e.p2 ++ point e.p3 ++ b2 e.rl) (.loadCalibration id) ∧
      loads 7 4 (fun e : BitVec 32 => b2 (e.extractLsb' 16 16) ++ b2 (e.extractLsb' 0 16)) (.loadTiming id) ∧
      loads 8 2 b2 (.loadAdaptParam id)) ∧
  ∀ (id : Byte) (ops : List Byte),
    let byte (i : Nat) : Byte := ops.getD i 0
    let word (i : Nat) : BitVec 16 := byte i ++ byte (i + 1)
    let stated {w : Nat} (set : Byte) (i : Nat) (x : BitVec w) : Option (BitVec w) := if set.getLsbD i then some x else none
    let setOk (set : Byte) (a b c d : Nat) : Prop := set.toNat < 16 ∧ (set.getLsbD 0 = false → a = 0) ∧
      (set.getLsbD 1 = false → b = 0) ∧ (set.getLsbD 2 = false → c = 0) ∧ (set.getLsbD 3 = false → d = 0)
    let sound : Prop := ops.length = 215 ∧
      (∀ k : Key, (byte (2 * k.val + 1)).getLsbD 5 = false ∧ (byte (2 * k.val + 1)).getLsbD 6 = false) ∧
      (byte 177).toNat < 32 ∧ (byte 179).toNat < 32 ∧
      (∀ b : Board, (byte (180 + 7 * b.val)).toNat < 2 ∧ setOk (byte (181 + 7 * b.val)) (byte (182 + 7 * b.val)).toNat
        (byte (183 + 7 * b.val)).toNat (word (184 + 7 * b.val)).toNat (byte (186 + 7 * b.val)).toNat) ∧
      setOk (byte 208) (byte 209).toNat (byte 210).toNat (word 211).toNat (word 213).toNat
    (sound → parseKind id 0x01 ops = .profile id (.good {
      keys := Vector.ofFn fun k =>
        ⟨byte (2 * k.val), (byte (2 * k.val + 1)).extractLsb' 0 5, (byte (2 * k.val + 1)).getLsbD 7⟩
      sustain := ⟨byte 176, (byte 177).extractLsb' 0 5⟩
      soft := ⟨byte 178, (byte 179).extractLsb' 0 5⟩
      boards := Vector.ofFn fun b =>
        let set := byte (181 + 7 * b.val)
        ⟨(byte (180 + 7 * b.val)).getLsbD 0, stated set 0 (byte (182 + 7 * b.val)), stated set 1 (byte (183 + 7 * b.val)),
          stated set 2 (word (184 + 7 * b.val)), stated set 3 (byte (186 + 7 * b.val))⟩
      mTot := stated (byte 208) 0 (byte 209)
      holdLimit := stated (byte 208) 1 (byte 210)
      returnTimeout := stated (byte 208) 2 (word 211)
      returnTime := stated (byte 208) 3 (word 213) })) ∧
    (¬sound → parseKind id 0x01 ops = .profile id .bad)

/-- Received bytes make frames (R165, R179, R183): bytes that are not SYNC are skipped, a frame stands behind a SYNC,
the first check that fails names its failure, and after a failed or discarded frame the search resumes behind its SYNC.
A Roll Link frame that fails a check is counted and sets LINK_ERROR, and does nothing else; a request that finds four
responses due is such a frame, whatever it asks. Bytes that do not yet make a frame give none; the CRC is that of R179;
requests are the rows that R180 gives a code; a board's frame is discarded where R143 says so. -/
def Obligations.FailedFrameIsCountedAndFlagged : Prop :=
  (∀ (check : FrameCheck) (s : State), s.settled →
    exec (.rollLinkFrameError check) s =
      .next ((raise .linkError
        (count (if check = .crc then .crcErrors else .lengthKindErrors) s)).ended s.mgmt.flags)) ∧
  (∀ (c : Instr) (s : State), s.settled → isRequest c = true → 4 ≤ s.responsesDue →
    exec c s = .next ((raise .linkError (count .lengthKindErrors s)).ended s.mgmt.flags)) ∧
  (∀ (noise payload tail : List Byte) (kind l1 l0 c1 c0 : Byte), 0xA5 ∉ noise →
    let length := l1.toNat * 256 + l0.toNat
    let body := kind :: l1 :: l0 :: payload
    let behind := body ++ c1 :: c0 :: tail
    let bytes := noise ++ 0xA5 :: behind
    let made (c : Instr) : Prop := assembleRoll bytes = .frame c tail behind
    assembleRoll noise = .more ∧
    (∀ rest : List Byte, length ≤ 1024 → rest.length < length + 2 →
      assembleRoll (noise ++ 0xA5 :: kind :: l1 :: l0 :: rest) = .more) ∧
    (1024 < length → assembleRoll bytes = .frame (.rollLinkFrameError .length) behind behind) ∧
    (payload.length = length → length ≤ 1024 →
      (crcBytes body ≠ [c1, c0] → made (.rollLinkFrameError .crc)) ∧
      (crcBytes body = [c1, c0] → kind ≠ 0x01 → kind ≠ 0x10 → made (.rollLinkFrameError .kind)) ∧
      (crcBytes body = [c1, c0] → kind = 0x01 → length ≠ 131 → made (.rollLinkFrameError .payload)) ∧
      (∀ (a b c : Byte) (cells : Vector Byte 128), crcBytes body = [c1, c0] → kind = 0x01 →
        payload = a :: b :: c :: cells.toList → made (.scanLine (a ++ b ++ c) cells)) ∧
      (crcBytes body = [c1, c0] → kind = 0x10 → length < 2 → made (.rollLinkFrameError .payload)) ∧
      (∀ (id k : Byte) (ops : List Byte), crcBytes body = [c1, c0] → kind = 0x10 → payload = id :: k :: ops →
        made (parseKind id k ops)))) ∧
  (∀ bytes : List Byte,
    let shifted (reg : BitVec 16) (bit : Bool) : BitVec 16 :=
      if reg.getLsbD 15 = bit then reg <<< 1 else (reg <<< 1) ^^^ 0x1021
    let bits (x : Byte) : List Bool := [7, 6, 5, 4, 3, 2, 1, 0].map fun i => x.getLsbD i
    let crc := (bytes.flatMap bits).foldl shifted 0xFFFF
    crcBytes bytes = [crc.extractLsb' 8 8, crc.extractLsb' 0 8]) ∧
  (∀ c : Instr, isRequest c = (match c with
    | .powerOnReset | .scanLine .. | .rollLinkFrameError _ | .pausePointReached | .resetFullEffect | .responseSend
    | .noticeSend | .lossTimeout | .dispatch | .pulseEnd _ | .holdLimit _ | .returnTimer _ | .engageEnd _
    | .strikeReport .. | .restReport .. | .faultReport .. | .strayReport => false
    | _ => true)) ∧
  (∀ (board : BitVec 4) (channel : Byte) (measured : BitVec 16) (reason : FaultReason) (s : State),
    (s.discards (.strikeReport board channel measured) = true ↔ s.reportKey board channel = none) ∧
    (s.discards (.restReport board channel) = true ↔ s.reportKey board channel = none) ∧
    (s.discards (.faultReport board reason) = true ↔
      s.port.profile = none ∨ ∀ b : Board, b.val = board.toNat → (s.board b).present = false) ∧
    s.discards .strayReport = true) ∧
  (∀ (noise rest : List Byte), (0xA5 ∉ noise → rest.length < 3 → assembleRoll (noise ++ 0xA5 :: rest) = .more) ∧
    (0x5A ∉ noise → rest.length < 6 → assembleAction (noise ++ 0x5A :: rest) = .more)) ∧
  (∀ (c : Instr) (afterFrame afterSync : List Byte) (s : State),
    assembleRoll s.link.rollRx = .frame c afterFrame afterSync →
      let left (bytes : List Byte) : State := { s with link := { s.link with rollRx := bytes } }
      (∀ check, c = .rollLinkFrameError check → takeIdle .rollFrame s = exec c (left afterSync)) ∧
      (isRequest c = true → 4 ≤ s.responsesDue →
        takeIdle .rollFrame s = exec (.rollLinkFrameError .backlog) (left afterSync)) ∧
      ((∀ check, c ≠ .rollLinkFrameError check) → (isRequest c = true → s.responsesDue < 4) →
        takeIdle .rollFrame s = exec c (left afterFrame))) ∧
  (∀ (noise tail : List Byte) (head channel p1 p0 c1 c0 : Byte), 0x5A ∉ noise →
    let behind := [head, channel, p1, p0, c1, c0] ++ tail
    let parameter := p1.toNat * 256 + p0.toNat
    let board : BitVec 4 := BitVec.ofNat 4 (head.toNat / 16)
    let sound := crcBytes [head, channel, p1, p0] = [c1, c0]
    let made (c : Instr) : Prop := assembleAction (noise ++ 0x5A :: behind) = .frame c tail behind
    assembleAction noise = .more ∧
    (sound → head.toNat % 16 = 8 → made (.strikeReport board channel (p1 ++ p0))) ∧
    (sound → head.toNat % 16 = 9 → made (.restReport board channel)) ∧
    (sound → head.toNat % 16 = 10 → parameter = 1 → made (.faultReport board .overcurrent)) ∧
    (sound → head.toNat % 16 = 10 → parameter = 2 → made (.faultReport board .thermal)) ∧
    (sound → head.toNat % 16 = 10 → parameter = 3 → made (.faultReport board .supply)) ∧
    (¬sound ∨ head.toNat % 16 < 8 ∨ 10 < head.toNat % 16 ∨
      (head.toNat % 16 = 10 ∧ (parameter = 0 ∨ 3 < parameter)) → made .strayReport)) ∧
  ∀ (c : Instr) (afterFrame afterSync : List Byte) (s : State),
    assembleAction s.link.actionRx = .frame c afterFrame afterSync →
      takeIdle .actionFrame s = exec c { s with link := { s.link with
        actionRx := if s.discards c = true then afterSync else afterFrame } }

/-- From the moment a RESET FULL is taken, scan lines and requests wait, in the order in which they arrive, until it has
taken effect (R177). That a frame also waits behind earlier ones that still wait after the reset, and that the waiting
frames are then taken one by one from the front, a request when fewer than four responses are due, is the model's choice
(log 10). -/
def Obligations.InboundFramesWaitForResetFull : Prop :=
  (∀ (c : Instr) (s : State), s.mgmt.fullReset ≠ .none ∨ s.mgmt.waiting ≠ [] →
    ((∃ line cells, c = .scanLine line cells) ∨ (isRequest c = true ∧ s.responsesDue < 4)) →
      exec c s = .next { s with mgmt := { s.mgmt with waiting := s.mgmt.waiting ++ [c] } }) ∧
  ∀ (c : Instr) (rest : List Instr) (s : State), s.mgmt.waiting = c :: rest →
    (IdleEvent.waiting ∈ idleEvents s ↔
      s.mgmt.fullReset = .none ∧ (isRequest c = true → s.responsesDue < 4)) ∧
    ∃ t, exec c { s with mgmt := { s.mgmt with waiting := [] } } = .next t ∧
      takeIdle .waiting s = .next { t with mgmt := { t.mgmt with waiting := rest } }

/-! ### Performance Control -/

/-- START (R2): taken in STOPPED with a profile and no busy probe, it prepares the blocks, the Route
Table held comes into force (R48) and the state is ARMED; NOT_READY
without a profile; BUSY while a probe is busy and in every other state. -/
def Obligations.StartPreparesAFreshRoll : Prop :=
  ∀ (id : Byte) (s : State), s.ready → s.settled →
    let resting : Regulator :=
      { level := 0, target := 0, code := 0, rate := .base, rateValue := s.expr.shading[16], accent := false }
    (s.perf.state = .stopped → s.port.profile ≠ none → s.probeBusy = false →
      exec (.start id (.good ())) s = .next (State.nowDue { s with
        perf := { s.perf with state := .armed, stopReason := .none, pausePoint := none }
        intake := { last := none, history := [] }
        reader := { s.reader with
          shift := 0, upRun := 0, downRun := 0, rollMarks := 0
          inForce := s.reader.route.map (·.function)
          detectors := Vector.ofFn fun t => 
            ({ raw := false, run := 0, runFirst := none, eff := false, openLine := none
               maskLast := s.reader.route[t].mask } : Detector) }
        expr := { s.expr with bass := resting, treble := resting }
        strike := { s.strike with lastNotes := Vector.replicate 88 none }
        pedals := { sustain := { s.pedals.sustain with lastDown := none }
                    soft := { s.pedals.soft with lastDown := none } } } [.response id .ok []])) ∧
    (s.perf.state = .stopped → s.port.profile = none →
      exec (.start id (.good ())) s = .next (s.nowDue [.response id .notReady []])) ∧
    ((s.perf.state = .stopped ∧ s.port.profile ≠ none ∧ s.probeBusy = true) ∨ s.perf.state ≠ .stopped →
      exec (.start id (.good ())) s = .next (s.nowDue [.response id .busy []]))

/-- The cut (R5): the Scheduler and every pending strike are emptied, driven keys are sent OFF and let go, the roll's
claim on the pedals goes, a busy probe is abandoned, and a pending switch completes. OFF for the keys or pedals that
satisfy a condition is one OFF for each of them that has a channel, on its own board and channel, which the profile's
maps give (R139, R142). The order of the OFFs (log 5), and that the rest notice of a DEFERRED key copies its observed
state into its snapshot (R130, R132, R162) where R151 and the table of R164 keep both (log 15), are the model's
choice. -/
def Obligations.CutEmptiesThePendingWork : Prop :=
  (∀ s : State,
    let pedal (r : PedalRec) : PedalRec :=
      { r with roll := false, rollTag := none, memSet := false, memTag := none, owed := none, refused := none }
    let sends := offKeys (fun _ r => r.phase = .striking ∨ r.phase = .held) s ++ s.pedalSends pedal
    cut s = { s with
      perf := { s.perf with lossTimer := none, pausePoint := none }
      clock := { s.clock with base := s.clock.switch.getD s.clock.base, switch := none }
      sched := { queue := [], owed := 0, deferral := [], total := 0 }
      keys := Vector.ofFn fun k =>
        let r := { s.key k with pending := none, owed := none, refused := none }
        match r.phase with
        | .resting | .releasing | .offline => r
        | .deferred => { r with phase := .resting, relWait := false, pulseEnd := none, holdLimit := none
                                returnTimer := none, pulseSent := false, expLead := none
                                observed := if r.pulseSent then .up else r.observed
                                snapshot := if r.pulseSent then .up else r.observed }
        | .striking => { r with phase := .releasing, relWait := false, pulseEnd := none, holdLimit := none,
                                returnTimer := some (s.returnTimerFor k), cutShort := true }
        | .held => { r with phase := .releasing, relWait := false, pulseEnd := none, holdLimit := none,
                            returnTimer := some (s.returnTimerFor k) }
      pedals := { sustain := (s.pedalTakes .sustain (pedal s.pedals.sustain)).1
                  soft := (s.pedalTakes .soft (pedal s.pedals.soft)).1 }
      port := { s.port with boards := Vector.ofFn fun b => { s.board b with inFlight := 0 } }
      calib := { s.calib with probe := s.calib.probe.map fun p =>
        if p.busy then { p with busy := false, result := some .none, endCause := some .abandoned } else p }
      mgmt := { s.mgmt with flags := if s.probeBusy then s.mgmt.flags ||| Flag.probeDone.mask else s.mgmt.flags }
      link := { s.link with sentDrive := s.link.sentDrive ++ sends } }) ∧
  ∀ s : State,
    let offTo (wire : Option (Board × Nat)) : Option DriveCmd := wire.map fun w => ⟨w.1, w.2, .off⟩
    (∀ c, offKeys c s = (List.ofFn fun k : Key => if c k (s.key k) then offTo (s.keyWire k) else none).filterMap id) ∧
    (∀ c, offPedals c s = [Pedal.sustain, Pedal.soft].filterMap fun p =>
      if c p (s.pedal p) then offTo (s.pedalWire p) else none) ∧
    (∀ a, driveCmd none a = none ∧ ∀ b channel, driveCmd (some (b, channel)) a = some ⟨b, channel, a⟩) ∧
    (∀ p a, sendPedal p a s =
      { s with link := { s.link with sentDrive := s.link.sentDrive ++ (driveCmd (s.pedalWire p) a).toList } }) ∧
    (∀ k b channel, s.keyWire k = some (b, channel) ↔
      ∃ pr, s.port.profile = some pr ∧ pr.keys[k].board = some b ∧ pr.keys[k].channel = channel) ∧
    (∀ p b channel, s.pedalWire p = some (b, channel) ↔ ∃ pr, s.port.profile = some pr ∧
      match p with
      | .sustain => pr.sustain.board = some b ∧ pr.sustain.channel = channel
      | .soft => pr.soft.board = some b ∧ pr.soft.channel = channel) ∧
    (∀ k b, s.keyOnBoard k b = true ↔ ∃ channel, s.keyWire k = some (b, channel)) ∧
    (∀ p b, s.pedalOnBoard p b = true ↔ ∃ channel, s.pedalWire p = some (b, channel)) ∧
    (∀ b, s.boardEnabled b = true ↔ (s.board b).service = .enabled) ∧
    (∀ k : Key, s.key k = s.keys[k]) ∧ s.pedal .sustain = s.pedals.sustain ∧ s.pedal .soft = s.pedals.soft ∧
    (∀ b : Board, s.board b = s.port.boards[b]) ∧ allKeys = List.ofFn id ∧ allPedals = [.sustain, .soft]

/-- STOP (R4): the cut, reason REQUEST, state STOPPED and the STOPPED flag, answered OK; in STOPPED without probe
activity it has no effect. Probe activity is a busy probe, a PROBE record, entry or pending strike, or a key in STRIKING
or HELD. What the cut does to a DEFERRED key's snapshot is the model's choice (log 15). -/
def Obligations.StopCutsThePerformance : Prop :=
  ∀ (id : Byte) (s : State), s.ready → s.settled →
    let busy : Prop := ∃ p, s.calib.probe = some p ∧ p.busy = true
    let activity : Prop := busy ∨ (∃ r ∈ s.sched.queue, r.tag.origin = .probe) ∨
      (∃ e ∈ s.sched.deferral, e.strike.tag.origin = .probe) ∨
      ∃ k, (∃ st, (s.key k).pending = some st ∧ st.tag.origin = .probe) ∨ (s.key k).phase = .striking ∨ (s.key k).phase = .held
    (s.probeBusy = true ↔ busy) ∧
    (s.perf.state = .stopped → ¬activity →
      exec (.stop id (.good ())) s = .next (s.nowDue [.response id .ok []])) ∧
    (s.perf.state ≠ .stopped ∨ activity →
      exec (.stop id (.good ())) s = .next ((raise .stopped
        { cut s with perf := { (cut s).perf with state := .stopped, stopReason := .request } }).replied
          s.mgmt.flags id .ok))

/-- Loss of the roll source (R7), when the loss timer runs out in PLAYING: the cut, reason LOST, the base forced to FREE
with any switch cancelled, a running loop back in ACQUIRING, and the flags. That LOSS_TIMEOUT does nothing in any other
case (log 2), and what the cut does to a DEFERRED key's snapshot (log 15), are the model's choice. -/
def Obligations.LossStopsThePerformance : Prop :=
  ∀ s : State, s.settled →
    (∀ at?, s.perf.state = .playing → s.perf.lossTimer = some at? → at? ≤ s.clock.actionTime →
      exec .lossTimeout s = .next (State.ended
        (raise .stopped (raise .sourceLost
          (raiseIf (s.clock.loop.mode ≠ .off && s.clock.loop.locked) .lockChange
          { cut s with
            perf := { (cut s).perf with state := .stopped, stopReason := .lost }
            clock := { (cut s).clock with
              base := .free, switch := none
              loop := if s.clock.loop.mode = .off then s.clock.loop else
                { s.clock.loop with mode := .acquiring, goodRun := 0, badRun := 0, locked := false } } })))
        s.mgmt.flags)) ∧
    (s.perf.state ≠ .playing ∨ s.perf.lossTimer = none ∨
        (∃ at?, s.perf.lossTimer = some at? ∧ s.clock.actionTime < at?) → exec .lossTimeout s = .next s)

/-- What entering PAUSED does (R13, R95, R133): play time stands still from here, since the paused total grows in
PAUSED; STRIKING keys get release-waiting, HELD keys are let go, the roll's claim on the pedals goes into the memory.
The order of the OFFs is the model's choice (log 5). -/
def Obligations.EnteringPausedReleasesTheKeys : Prop :=
  (∀ s : State,
    let pedal (r : PedalRec) : PedalRec :=
      { r with memSet := r.roll, memTag := if r.roll then r.rollTag else none, roll := false, rollTag := none }
    let sends := offKeys (fun _ r => r.phase = .held) s ++ s.pedalSends pedal
    enterPaused s = { s with
      perf := { s.perf with state := .paused, lossTimer := none, pausePoint := none }
      keys := Vector.ofFn fun k =>
        let r := s.key k
        match r.phase with
        | .striking => { r with relWait := true }
        | .held => { r with phase := .releasing, relWait := false, pulseEnd := none, holdLimit := none,
                            returnTimer := some (s.returnTimerFor k) }
        | .resting | .deferred | .releasing | .offline => r
      pedals := { sustain := (s.pedalTakes .sustain (pedal s.pedals.sustain)).1
                  soft := (s.pedalTakes .soft (pedal s.pedals.soft)).1 }
      mgmt := { s.mgmt with flags := s.mgmt.flags ||| Flag.paused.mask }
      link := { s.link with sentDrive := s.link.sentDrive ++ sends } }) ∧
  ∀ s : State, s.perf.state = .paused → (tick s).playTime = s.playTime

/-- PAUSE (R12) enters PAUSED at once in PLAYING and is BUSY elsewhere; PAUSE_POINT_REACHED (R13) enters PAUSED when
play time has reached the pause point in PLAYING. That PAUSE_POINT_REACHED does nothing in any other case is the model's
choice (log 2). -/
def Obligations.PauseEntersPaused : Prop :=
  ∀ (id : Byte) (s : State), s.settled →
    (s.ready → s.perf.state = .playing →
      exec (.pause id (.good ())) s = .next ((enterPaused s).replied s.mgmt.flags id .ok)) ∧
    (s.ready → s.perf.state ≠ .playing →
      exec (.pause id (.good ())) s = .next (s.nowDue [.response id .busy []])) ∧
    (∀ t, s.perf.state = .playing → s.perf.pausePoint = some t → t ≤ s.playTime →
      exec .pausePointReached s = .next ((enterPaused s).ended s.mgmt.flags)) ∧
    ((s.perf.state ≠ .playing ∨ s.perf.pausePoint = none ∨ ∃ t, s.perf.pausePoint = some t ∧ s.playTime < t) →
      exec .pausePointReached s = .next s)

/-- RESUME (R15): PLAYING with a fresh loss timer, a running loop back in ACQUIRING with the RESEED treatment, the roll
pedals restored, the pending strikes of RESTING keys on the Deferral List and the arbiter run over it; with none of
these strikes and an empty list, that is all. The strikes join in ascending key number, each behind those that fire at
or before it, so in order of fire time and, of equal ones, of key number. BUSY in every state but PAUSED. The order of
the PULSEs (log 5), and that a key whose entry the arbiter drops as late changes its snapshot (log 15), are the model's
choice. -/
def Obligations.ResumePlaysOn : Prop :=
  ∀ (id : Byte) (s : State), s.ready → s.settled →
    let pedal (r : PedalRec) : PedalRec :=
      { r with roll := r.memSet, rollTag := if r.memSet then r.memTag else none, memSet := false, memTag := none }
    let playing : State := raiseIf (s.clock.loop.mode ≠ .off && s.clock.loop.locked) .lockChange { s with
      perf := { s.perf with state := .playing }
      clock := { s.clock with loop := if s.clock.loop.mode = .off then s.clock.loop else
        { s.clock.loop with mode := .acquiring, goodRun := 0, badRun := 0, locked := false, treatment := .reseed } }
      pedals := { sustain := (s.pedalTakes .sustain (pedal s.pedals.sustain)).1
                  soft := (s.pedalTakes .soft (pedal s.pedals.soft)).1 }
      link := { s.link with sentDrive := s.link.sentDrive ++ s.pedalSends pedal } }
    let timed (t : State) : State :=
      { t with perf := { t.perf with lossTimer := some (s.expiry (s.clock.timing[2] * 1000)) } }
    (s.perf.state = .paused →
      exec (.resume id (.good ())) s =
        .next ((timed (runArbiter (joinPending playing))).replied s.mgmt.flags id .ok)) ∧
    (s.sched.deferral = [] → (∀ k, (s.key k).phase = .resting → (s.key k).pending = none) →
      runArbiter (joinPending playing) = playing) ∧
    (let joins (k : Key) : Option DeferralEntry :=
      if (s.key k).phase = .resting then (s.key k).pending.map fun st => ⟨k, st⟩ else none
    let insert (l : List DeferralEntry) (e : DeferralEntry) : List DeferralEntry :=
      l.takeWhile (·.strike.fire ≤ e.strike.fire) ++ e :: l.dropWhile (·.strike.fire ≤ e.strike.fire)
    joinPending playing = { playing with
      keys := Vector.ofFn fun k =>
        match joins k with
        | some e => { s.key k with phase := .deferred, current := some e.strike.tag, pending := none }
        | none => s.key k
      sched := { s.sched with deferral := ((List.ofFn joins).filterMap fun x => x).foldl insert s.sched.deferral } }) ∧
    (s.perf.state ≠ .paused →
      exec (.resume id (.good ())) s = .next (s.nowDue [.response id .busy []]))

/-- SET_CUE and CLEAR_CUE (R8): a cue goes in at its place in ascending order; one that is in the list changes nothing;
FULL with eight others; a cue or all of them are removed. -/
def Obligations.CueRequestsEditTheCueList : Prop :=
  ∀ (id : Byte) (n : BitVec 24) (s : State), s.ready → s.settled →
    let cues := s.perf.cues
    let withCues (l : List Nat) (r : Result) : State :=
      State.nowDue { s with perf := { s.perf with cues := l } } [.response id r []]
    exec (.setCue id (.good n)) s = .next
      (if n.toNat ∈ cues then withCues cues .ok
      else if 8 ≤ cues.length then withCues cues .full
      else withCues (cues.takeWhile (· < n.toNat) ++ n.toNat :: cues.dropWhile (· < n.toNat)) .ok) ∧
    exec (.clearCue id (.good n)) s = .next (withCues (cues.filter (· ≠ n.toNat)) .ok) ∧
    exec (.clearCueAll id (.good ())) s = .next (withCues [] .ok)

/-! ### Resets, flags, notices and what leaves -/

/-- Power-on reset (R178): every block at the power-on values of its chapter, the tables of R47, R60, R63, R65 and R71
among them. The commands still queued and the record of what has left are not the part's (log 4). -/
def Obligations.PowerOnGivesEveryBlockItsValues : Prop :=
  ∀ s : State, ∃ t, exec .powerOnReset s = .next t ∧
    t = { State.reset with
      pending := s.pending
      link := { State.reset.link with
        sentRoll := s.link.sentRoll, sentDrive := s.link.sentDrive, idleCount := s.link.idleCount } } ∧
    t.link.rollRx = [] ∧ t.link.actionRx = [] ∧
    t.expr.shading.toList = [0, 146, 292, 438, 584, 730, 876, 1022, 0, 146, 292, 438, 584, 730, 876, 1022, 64, 2, 8, 160,
      44, 192] ∧
    (∀ i : Fin 256, t.expr.curve[i] = i.val * 1000 / 255) ∧ (∀ k : Key, t.expr.voicing[k] = 0) ∧
    (∀ k : Key, t.strike.calib[k] =
      ⟨⟨100, 2000, 30000⟩, ⟨350, 4500, 20000⟩, ⟨650, 8000, 14000⟩, ⟨1000, 12000, 10000⟩, 8000⟩ ∧
      t.strike.lastNotes[k] = none) ∧
    ∀ u : Track, t.reader.route[u] = ⟨.unused, false⟩ ∧ t.reader.inForce[u] = .unused ∧
      t.reader.detectors[u].eff = false

/-- The values after power-on that the chapters name, field by field (R1, R19 to R23, R35, R39, R41, R44, R47, R53, R55,
R60, R63, R65, R71, R73, R86, R99, R106, R109, R118, R138, R139, R151, R152, R158, R166, R172 to R175, R177, R178).
Before any START the functions in force are those of the Route Table, all UNUSED (R47, R48). -/
def Obligations.ResetStateHoldsTheChaptersValues : Prop :=
  let s := State.reset
  s.perf = { state := .stopped, stopReason := .reset, cues := [], pausePoint := none, lossTimer := none } ∧
    s.clock.actionTime = 0 ∧ s.clock.pausedTotal = 0 ∧ s.playTime = 0 ∧ s.clock.base = .free ∧ s.clock.switch = none ∧
    s.clock.loop = { mode := .off, locked := false, pEst := 256000, tLoop := 0, goodRun := 0, badRun := 0,
                     treatment := .seed, lastError := 0 } ∧
    s.clock.timing.toList = [1000, 200000, 500, 40, 60000, 50000, 40000, 30000, 0] ∧
    s.intake = { last := none, history := [] } ∧
    s.reader.detect.toList = [8, 160, 96, 2, 1, 32, 48, 127] ∧ s.reader.shift = 0 ∧ s.reader.upRun = 0 ∧
    s.reader.downRun = 0 ∧ s.reader.rollMarks = 0 ∧
    (∀ u : Track, s.reader.detectors[u] =
      { raw := false, run := 0, runFirst := none, eff := false, openLine := none, maskLast := false }) ∧
    (∀ u : Track, s.reader.route[u] = ⟨.unused, false⟩ ∧ s.reader.inForce[u] = .unused) ∧
    s.expr.shading.toList = [0, 146, 292, 438, 584, 730, 876, 1022, 0, 146, 292, 438, 584, 730, 876, 1022, 64, 2, 8, 160,
      44, 192] ∧
    (∀ i : Fin 256, s.expr.curve[i] = i.val * 1000 / 255) ∧ (∀ k : Key, s.expr.voicing[k] = 0) ∧
    (∀ k : Key, s.strike.calib[k] =
      ⟨⟨100, 2000, 30000⟩, ⟨350, 4500, 20000⟩, ⟨650, 8000, 14000⟩, ⟨1000, 12000, 10000⟩, 8000⟩) ∧
    (∀ h, s.regulator h = { level := 0, target := 0, code := 0, rate := .base, rateValue := 64, accent := false }) ∧
    (∀ k : Key, s.strike.lastNotes[k] = none) ∧
    s.sched = { queue := [], owed := 0, deferral := [], total := 0 } ∧
    (∀ k, s.key k = {
      phase := .offline, current := none, pulseSent := false, relWait := false, expLead := none, pending := none
      owed := none, refused := none, pulseEnd := none, holdLimit := none, returnTimer := none, missedRest := 0
      faultFlag := false, correction := 0, adapt := .active, outlierRun := 0, missedRun := 0, strikeSeen := false
      cutShort := false, observed := .up, snapshot := .up }) ∧
    (∀ p, s.pedal p = {
      roll := false, rollTag := none, manual := false, inhibit := false, memSet := false, memTag := none, phase := .up
      relWait := false, engageEnd := none, lastDown := none, owed := none, refused := none }) ∧
    (∀ b, s.board b =
      { present := false, service := .disabled .noProfile, faultReason := none, inFlight := 0, params := none }) ∧
    s.port.profile = none ∧ s.calib.globalAdapt = true ∧ s.calib.adaptParam.toList = [12000, 4] ∧ s.calib.serial = 0 ∧
    s.calib.probe = none ∧ s.mgmt.flags = 0 ∧ (∀ f, s.flag f = false) ∧ s.mgmt.enables = 0 ∧ (∀ c, s.counter c = 0) ∧
    s.mgmt.outbound = [] ∧ s.mgmt.fullReset = .none ∧ s.mgmt.waiting = [] ∧ s.link.rollRx = [] ∧ s.link.actionRx = [] ∧
    s.pending = []

/-- RESET PERFORMANCE (R18, R176): the cut, reason RESET, no cues, the snapshots, a due notice withdrawn, every flag
clear and every counter 0; it sends its response and nothing else. -/
def Obligations.ResetPerformanceClearsFlagsAndCounters : Prop :=
  ∀ (id : Byte) (s : State), s.ready →
    exec (.resetPerformance id (.good ())) s = .next (State.nowDue { cut s with
      perf := { state := .stopped, stopReason := .reset, cues := [], pausePoint := none, lossTimer := none }
      reader := { s.reader with rollMarks := 0 }
      keys := Vector.ofFn fun k => { (cut s).key k with snapshot := ((cut s).key k).observed }
      mgmt := { s.mgmt with
        flags := 0
        counters := Vector.replicate 14 0
        outbound := s.mgmt.outbound.filter OutFrame.isResponse } } [.response id .ok []])

/-- RESET FULL (R177): answered OK at once; it takes effect when that response has left, with OFF for every driven key
and pedal on an enabled board and every block at its power-on values. That RESET_FULL_EFFECT does nothing before then
(log 2) and the order of the OFFs (log 5) are the model's choice. -/
def Obligations.ResetFullWaitsForItsResponse : Prop :=
  ∀ (id : Byte) (s : State),
    (s.ready → s.settled →
      exec (.resetFull id (.good ())) s = .next
        (State.nowDue { s with mgmt := { s.mgmt with fullReset := .responding } } [.response id .ok []])) ∧
    (s.mgmt.fullReset ≠ .ready → exec .resetFullEffect s = .next s) ∧
    (s.mgmt.fullReset = .ready → exec .resetFullEffect s = .next { State.reset with
      mgmt := { State.reset.mgmt with
        outbound := s.mgmt.outbound.filter OutFrame.isResponse, waiting := s.mgmt.waiting }
      link := { s.link with sentDrive := s.link.sentDrive ++
        (offKeys (fun k r => (r.phase = .striking || r.phase = .held) &&
            (s.keyWire k).any fun w => s.boardEnabled w.1) s ++
          offPedals (fun p r => (r.phase = .engaging || r.phase = .down) &&
            (s.pedalWire p).any fun w => s.boardEnabled w.1) s) }
      pending := s.pending })

/-- Due frames leave whole and in order (R166): the response at the head, or the notice at the head, formed as it leaves
from the flags set and enabled, the state, the stop reason and play time (R173). When the last response has left, a
RESET FULL that was answered is ready to take effect (R177). The bytes of what leaves are given: a Roll Link frame is
SYNC, KIND, LENGTH, the payload and the CRC (R179), a response's payload its id, result code and data, a notice's its
flag set, state, reason and time (R182); an Action Link frame is SYNC, board and kind, channel, parameter and the CRC
(R183). That a frame leaves whole in one step, and that RESPONSE_SEND and NOTICE_SEND do nothing without a frame of
theirs at the head, is the model's choice (log 2). -/
def Obligations.DueFramesLeaveInOrder : Prop :=
  (∀ s : State,
    (∀ id r data rest, s.mgmt.outbound = .response id r data :: rest →
      exec .responseSend s = .next { s with
        mgmt := { s.mgmt with
          outbound := rest
          fullReset := if s.mgmt.fullReset = .responding ∧ (∀ f ∈ rest, f = .notice) then .ready
            else s.mgmt.fullReset }
        link := { s.link with sentRoll := s.link.sentRoll ++ [.response id r data] } }) ∧
    (∀ rest, s.mgmt.outbound = .notice :: rest →
      exec .noticeSend s = .next { s with
        mgmt := { s.mgmt with outbound := rest }
        link := { s.link with sentRoll := s.link.sentRoll ++
          [.notice (s.mgmt.flags &&& s.mgmt.enables) s.perf.state s.perf.stopReason s.playTime] } }) ∧
    (∀ f : OutFrame, f.isResponse = true ↔ ∃ id r data, f = .response id r data) ∧
    s.responsesDue = (s.mgmt.outbound.filter OutFrame.isResponse).length ∧
    ((∀ id r data rest, s.mgmt.outbound ≠ .response id r data :: rest) → exec .responseSend s = .next s) ∧
    ((∀ rest, s.mgmt.outbound ≠ .notice :: rest) → exec .noticeSend s = .next s)) ∧
  (let b1 (n : Nat) : List Byte := [BitVec.ofNat 8 n]
  let b2 (n : Nat) : List Byte := b1 (n / 256) ++ b1 n
  let b6 (n : Nat) : List Byte :=
    b1 (n / 1099511627776) ++ b1 (n / 4294967296) ++ b1 (n / 16777216) ++ b1 (n / 65536) ++ b2 n
  let shifted (reg : BitVec 16) (bit : Bool) : BitVec 16 :=
    if reg.getLsbD 15 = bit then reg <<< 1 else (reg <<< 1) ^^^ 0x1021
  let bits (x : Byte) : List Bool := [7, 6, 5, 4, 3, 2, 1, 0].map fun i => x.getLsbD i
  let withCrc (body : List Byte) : List Byte := body ++ b2 ((body.flatMap bits).foldl shifted 0xFFFF).toNat
  let rollFrame (kind : Byte) (payload : List Byte) : List Byte :=
    0xA5 :: withCrc (kind :: b2 payload.length ++ payload)
  let state (x : PerfState) : Nat := match x with
    | .stopped => 0 | .armed => 1 | .playing => 2 | .paused => 3 | .draining => 4
  let reason (x : StopReason) : Nat := match x with | .none => 0 | .request => 1 | .ended => 2 | .lost => 3 | .reset => 4
  let result (x : Result) : Nat := match x with
    | .ok => 0 | .clamped => 1 | .busy => 2 | .interlock => 3 | .once => 4 | .invalid => 5 | .notReady => 6 | .full => 7
    | .unknown => 8
  let driven (c : DriveCmd) (kind parameter : Nat) : List Byte :=
    0x5A :: withCrc (b1 (16 * c.board.val + kind) ++ b1 c.channel ++ b2 parameter)
  (∀ id r data, (SentFrame.response id r data).bytes = rollFrame 0x20 (id :: b1 (result r) ++ data)) ∧
  (∀ (flags : BitVec 16) p r time, (SentFrame.notice flags p r time).bytes =
    rollFrame 0x21 (b2 flags.toNat ++ b1 (state p) ++ b1 (reason r) ++ b6 time)) ∧
  (∀ (c : DriveCmd) (w : Nat), c.action = .pulse w → c.bytes = driven c 1 w) ∧
  (∀ (c : DriveCmd) (d : Nat), c.action = .hold d → c.bytes = driven c 2 d) ∧
  ∀ c : DriveCmd, c.action = .off → c.bytes = driven c 3 0)

/-- CLEAR (R172): each flag of the set is cleared, the others keep their values, and TOUCH is set again at once, as a
rise, if some key is in mismatch. The bit of each flag in a flag set (R180); setting a flag sets its bit and changes
nothing else (R172). -/
def Obligations.ClearClearsTheNamedFlags : Prop :=
  (∀ (id : Byte) (set : BitVec 16) (s : State), s.ready → s.settled →
    let cleared : State := { s with mgmt := { s.mgmt with flags := s.mgmt.flags &&& ~~~set } }
    exec (.clear id (.good set)) s =
      .next ((if ∃ k, (s.key k).phase = .resting ∧ (s.key k).observed ≠ (s.key k).snapshot then raise .touch cleared
        else cleared).replied cleared.mgmt.flags id .ok)) ∧
  ∀ (f : Flag) (s : State),
    let bit : Nat := match f with
      | .lockChange => 0 | .sourceLost => 1 | .endOfRoll => 2 | .cue => 3 | .paused => 4 | .stopped => 5 | .queueFull => 6
      | .lateDrop => 7 | .sensorFault => 8 | .boardFault => 9 | .holdExpired => 10 | .touch => 11 | .linkError => 12
      | .alignLimit => 13 | .probeDone => 14
    f.bit = bit ∧ f.mask = 1#16 <<< bit ∧ s.flag f = s.mgmt.flags.getLsbD bit ∧
      raise f s = { s with mgmt := { s.mgmt with flags := s.mgmt.flags ||| 1#16 <<< bit } } ∧
      raiseIf true f s = raise f s ∧ raiseIf false f s = s

/-- NOTICES (R174): the enables become the set; one notice is due after the response if a flag newly enabled is set. -/
def Obligations.NoticesReplacesTheEnables : Prop :=
  ∀ (id : Byte) (set : BitVec 16) (s : State), s.ready → s.settled →
    exec (.notices id (.good set)) s = .next (State.nowDue { s with mgmt := { s.mgmt with enables := set } }
      (.response id .ok [] ::
        if set &&& ~~~s.mgmt.enables &&& s.mgmt.flags ≠ 0 ∧ .notice ∉ s.mgmt.outbound then [.notice] else []))

/-! ### The Line Clock -/

/-- TIMEBASE (R31): BUSY while a switch is pending; INTERLOCK for LINE unless the loop is TRACKING; nothing for the base
in force; at once in STOPPED; recorded as pending in any other state. -/
def Obligations.TimebaseChangesTheBase : Prop :=
  ∀ (id : Byte) (b : Base) (s : State), s.ready → s.settled →
    exec (match b with | .free => .timebaseFree id (.good ()) | .line => .timebaseLine id (.good ())) s = .next
      (if s.clock.switch ≠ none then s.nowDue [.response id .busy []]
      else if b = .line ∧ s.clock.loop.mode ≠ .tracking then s.nowDue [.response id .interlock []]
      else if b = s.clock.base then s.nowDue [.response id .ok []]
      else if s.perf.state = .stopped then
        State.nowDue { s with clock := { s.clock with base := b } } [.response id .ok []]
      else State.nowDue { s with clock := { s.clock with switch := some b } } [.response id .ok []])

/-- LOOP (R25): ON starts acquiring at the nominal period with treatment SEED, if the mode is OFF; OFF is refused with
the base LINE or a switch to LINE pending, and otherwise stops the loop and clears its runs and LOCKED. -/
def Obligations.LoopRequestsStartAndStopTheLoop : Prop :=
  ∀ (id : Byte) (s : State), s.ready → s.settled → (s.clock.loop.locked = true → s.clock.loop.mode = .tracking) →
    let withLoop (l : LoopRec) : State := { s with clock := { s.clock with loop := l } }
    exec (.loopOn id (.good ())) s = .next (State.nowDue
      (if s.clock.loop.mode = .off then
        withLoop { s.clock.loop with mode := .acquiring, pEst := s.clock.timing[0] * 256, goodRun := 0, badRun := 0,
                                     lastError := 0, treatment := .seed }
      else s) [.response id .ok []]) ∧
    exec (.loopOff id (.good ())) s = .next
      (if s.clock.base = .line ∨ s.clock.switch = some .line then s.nowDue [.response id .interlock []]
      else if s.clock.loop.mode = .off then s.nowDue [.response id .ok []]
      else
        let off := withLoop { s.clock.loop with mode := .off, goodRun := 0, badRun := 0, locked := false }
        if s.clock.loop.locked then (raise .lockChange off).replied s.mgmt.flags id .ok
        else off.nowDue [.response id .ok []])

/-- The line time of an accepted line and what becomes of the base (R24, R32): the arrival for the first line; the FREE
formula in FREE base; in LINE base T_loop, or after RESUME the later of the arrival and one predicted period. A switch
to LINE takes the stamped time as T_loop. A running loop takes its phase from the first line and a SEED or RESEED line
without a measurement, and the treatment becomes MEASURE (R3, R26). A gap of more than 8 lines is counted whatever the
loop does (R26), and LOCK_CHANGE is set with each change of LOCKED (R30). That a sum is held at the largest play time is
the model's choice (log 3). -/
def Obligations.LinesAreStampedByTheTimeBase : Prop :=
  ∀ (n : Nat) (s : State),
    let first : Prop := s.perf.state = .armed ∨ s.intake.history = []
    let stamped := stampLine n s
    ∃ t, stamped.intake =
        { last := some n, history := (s.intake.history ++ [(⟨n, t⟩ : Stamp)]).drop (s.intake.history.length - 3) } ∧
      (first → t = s.playTime) ∧
      (∀ h last, ¬first → s.intake.history = h ++ [last] → s.clock.base = .free →
        t = min maxTime (last.time + (n - last.line) * s.clock.timing[0])) ∧
      (∀ h last, ¬first → s.intake.history = h ++ [last] → s.clock.base = .line → s.clock.loop.mode ≠ .off →
        (s.clock.loop.treatment = .reseed →
          t = min maxTime (max s.playTime (last.time + s.clock.loop.pEst / 256))) ∧
        (s.clock.loop.treatment ≠ .reseed → t = stamped.clock.loop.tLoop)) ∧
      stamped.clock.base = s.clock.switch.getD s.clock.base ∧ stamped.clock.switch = none ∧
      (s.clock.switch = some .line → stamped.clock.loop.tLoop = t) ∧
      (let l := s.clock.loop
      let phase (p : Nat) : Nat := if s.clock.switch = some .line then t else p
      (l.mode = .off → stamped.clock.loop = { l with tLoop := phase l.tLoop }) ∧
      (first → l.mode ≠ .off → stamped.clock.loop = { l with tLoop := s.playTime, treatment := .measure }) ∧
      (¬first → l.mode ≠ .off → l.treatment = .seed →
        stamped.clock.loop = { l with tLoop := phase s.playTime, treatment := .measure }) ∧
      (¬first → l.mode ≠ .off → l.treatment = .reseed →
        stamped.clock.loop =
          { l with tLoop := phase (min maxTime (max s.playTime (l.tLoop + l.pEst / 256))), treatment := .measure })) ∧
      (∀ h last, ¬first → s.intake.history = h ++ [last] →
        stamped.counter .gapEvents =
          if 8 < n - last.line - 1 then min 65535 (s.counter .gapEvents + 1) else s.counter .gapEvents) ∧
      (first → stamped.counter .gapEvents = s.counter .gapEvents) ∧
      (∀ f, stamped.flag f =
        (s.flag f || (f == .lockChange && stamped.clock.loop.locked != s.clock.loop.locked))) ∧
      (∀ c, c ≠ .gapEvents → stamped.counter c = s.counter c) ∧
      { stamped with intake := s.intake, clock := s.clock, mgmt := s.mgmt } = s

/-- A MEASURE line updates the running loop (R26 to R29), a switch line too, on which a switch to LINE then puts the
stamped time in the place of the phase (R32): the error against the prediction moves phase and period with the gains of
the mode, P_est stays within 7/8 to 9/8 of nominal, and the runs move the mode and LOCKED, whose change sets LOCK_CHANGE
(R30); a gap of more than 8 only places the phase and sends the loop back to ACQUIRING. That the phase is held at the
largest play time is the model's choice (log 3). -/
def Obligations.MeasuredLinesMoveTheLoop : Prop :=
  ∀ (n : Nat) (h : List Stamp) (last : Stamp) (s : State),
    s.perf.state ≠ .armed → s.intake.history = h ++ [last] →
    s.clock.loop.mode ≠ .off → s.clock.loop.treatment = .measure →
    let l := s.clock.loop
    let p := s.clock.timing[0]
    let g := n - last.line - 1
    let pred := l.tLoop + (g + 1) * (l.pEst / 256)
    let e : Int := (s.playTime : Int) - pred
    let period (step : Int) : Nat := (max (p * 224 : Int) (min (p * 288) (l.pEst + step))).toNat
    let stamped := stampLine n s
    let placed (phase : Nat) : Nat :=
      if s.clock.switch = some .line then (stamped.intake.history.getLast?.map (·.time)).getD 0 else phase
    let phase (step : Int) : Nat := placed (min maxTime (pred + step).toNat)
    let out := stamped.clock.loop
    (∀ f, stamped.flag f = (s.flag f || (f == .lockChange && out.locked != l.locked))) ∧
    (8 < g → out = { l with tLoop := placed (min maxTime pred), lastError := e, mode := .acquiring, goodRun := 0, badRun := 0,
                            locked := false } ∧ stamped.counter .gapEvents = min 65535 (s.counter .gapEvents + 1)) ∧
    (g ≤ 8 → l.mode = .acquiring →
      let good := if e.natAbs ≤ p / 32 then l.goodRun + 1 else 0
      let moved := { l with tLoop := phase (Int.fdiv e 4), pEst := period (e * 16), lastError := e }
      out = if 16 ≤ good then { moved with mode := .tracking, goodRun := 0, badRun := 0 }
        else { moved with goodRun := good }) ∧
    (g ≤ 8 → l.mode = .tracking →
      let good := if e.natAbs ≤ p / 64 then min 32 (l.goodRun + 1) else 0
      let bad := if p / 16 < e.natAbs then l.badRun + 1 else 0
      let moved := { l with tLoop := phase (Int.fdiv e 16), pEst := period (e * 2), lastError := e }
      out = if 4 ≤ bad then { moved with mode := .acquiring, goodRun := 0, badRun := 0, locked := false }
        else { moved with goodRun := good, badRun := bad, locked := l.locked || good == 32 })

/-! ### Reading the roll -/

/-- A refused line is counted under the state that refuses it, and has no other effect (R37). -/
def Obligations.RefusedLinesAreOnlyCounted : Prop :=
  ∀ (line : BitVec 24) (cells : Vector Byte 128) (s : State), s.mgmt.fullReset = .none → s.mgmt.waiting = [] →
    s.settled →
      (s.perf.state = .stopped → exec (.scanLine line cells) s = .next (count .idleLines s)) ∧
      (∀ last, s.perf.state = .playing → s.intake.last = some last → line.toNat ≤ last →
        exec (.scanLine line cells) s = .next (count .staleLines s)) ∧
      (s.perf.state = .paused → exec (.scanLine line cells) s = .next (count .pausedLines s)) ∧
      (s.perf.state = .draining → exec (.scanLine line cells) s = .next (count .afterEndLines s))

/-- A line is accepted in ARMED whatever its number, and in PLAYING above the last accepted one (R37); it is handed on
in the order of R38 and R51: stamped and recorded, the loss timer and the cues, the detectors, the alignment, the
regulators, the closings, the openings, the CUE onsets, the END onset; then a pause point that has come is reached
(R11). It leaves the line as the last accepted one and keeps every table. Without an END onset the state is then PLAYING
or PAUSED, and with one DRAINING, or STOPPED if the draining is over at once. The effective closings, and then the
effective openings, of NOTE and PEDAL channels are handed on in ascending track number, each as the request of R52. -/
def Obligations.AcceptedLinesAreHandedOn : Prop :=
  (∀ (line : BitVec 24) (cells : Vector Byte 128) (s : State), s.mgmt.fullReset = .none → s.mgmt.waiting = [] →
    (s.perf.state = .armed ∨ (s.perf.state = .playing ∧ ∀ last, s.intake.last = some last → last < line.toNat)) →
      let n := line.toNat
      let timed := performLine n (stampLine n s)
      let steps := trackSteps n cells timed
      let shaded := stepRegulators (alignLine cells (setDetectors steps timed))
      let read := handEnd steps (handCues steps (handOpenings steps (handClosings steps shaded)))
      let t := settle (if read.pauseReached then enterPaused read else read)
      (read.pauseReached = true ↔
        read.perf.state = .playing ∧ ∃ at?, read.perf.pausePoint = some at? ∧ at? ≤ read.playTime) ∧
      exec (.scanLine line cells) s = .next (t.ended s.mgmt.flags) ∧
        t.intake = (stampLine n s).intake ∧ t.intake.last = some n ∧ t.expr = shaded.expr ∧
        (let ended : Prop := ∃ u : Track, s.reader.inForce[u] = .endMark ∧ steps[u].onset ≠ none
        (¬ended → t.perf.state = .playing ∨ t.perf.state = .paused) ∧
          (ended → t.perf.state = .draining ∨ t.perf.state = .stopped)) ∧
        t.reader.route = s.reader.route ∧ t.reader.inForce = s.reader.inForce ∧ t.reader.detect = s.reader.detect ∧
        t.clock.timing = s.clock.timing ∧ t.expr.shading = s.expr.shading ∧ t.expr.curve = s.expr.curve ∧
        t.expr.voicing = s.expr.voicing ∧ t.strike.calib = s.strike.calib ∧
        t.calib.adaptParam = s.calib.adaptParam) ∧
  ∀ (steps : Vector TrackStep 112) (s : State),
    let closings : List (RouteFn × Nat × Nat) :=
      (List.ofFn fun u : Track => steps[u].closing.map fun c => (s.reader.inForce[u], c)).filterMap id
    let openings : List (RouteFn × Nat) :=
      (List.ofFn fun u : Track => steps[u].opening.map fun n => (s.reader.inForce[u], n)).filterMap id
    handClosings steps s = closings.foldl (fun t c => match c.1 with
      | .note k => requestRelease k c.2.1 c.2.2 t
      | .pedal p => requestPedalUp p c.2.1 c.2.2 t
      | _ => t) s ∧
    handOpenings steps s = openings.foldl (fun t c => match c.1 with
      | .note k => requestStrike k c.2 t
      | .pedal p => requestPedalDown p c.2 t
      | _ => t) s

/-- What an accepted line does at Performance Control (R3, R6, R9): PLAYING, the loss timer restarted, every cue at or
below the line removed with CUE set, and the pause point at the line's strike time unless one is set: the line's time in
the line history (R38) plus D. A CUE onset (R10, R53), which an unmasked CUE track makes where its detector confirms an
opening, is counted as a roll mark, and with roll-mark pausing on in PLAYING sets CUE and the pause point at its line's
strike time unless one is set; the onsets of a line are taken in ascending track number. That a strike time is held at
the largest play time where it becomes a pause point is the model's choice (log 3). -/
def Obligations.AcceptedLinesReachTheirCues : Prop :=
  (∀ (line : Nat) (s : State),
    (∀ before st after, s.intake.history = before ++ st :: after → st.line = line → (∀ x ∈ before, x.line ≠ line) →
      s.timeOf line = st.time) ∧
    s.strikeTime line = min 281474976710655 (s.timeOf line + s.clock.timing[1])) ∧
  (∀ (n : Nat) (s : State),
    let reached := ∃ c ∈ s.perf.cues, c ≤ n
    let t := performLine n s
    t.perf.state = .playing ∧ t.perf.lossTimer = some (min maxTime (s.clock.actionTime + s.clock.timing[2] * 1000)) ∧
      t.perf.cues = s.perf.cues.filter (n < ·) ∧ t.perf.stopReason = s.perf.stopReason ∧
      (reached → t.flag .cue = true ∧
        t.perf.pausePoint = some (s.perf.pausePoint.getD (s.strikeTime n))) ∧
      (¬reached → t.mgmt = s.mgmt ∧ t.perf.pausePoint = s.perf.pausePoint) ∧
      { t with perf := s.perf, mgmt := s.mgmt } = s) ∧
  (∀ (m : Nat) (s : State),
    let counted : State := { s with reader := { s.reader with rollMarks := min 65535 (s.reader.rollMarks + 1) } }
    (s.clock.timing[8] = 1 → s.perf.state = .playing → cueOnset m s = { counted with
      perf := { s.perf with pausePoint := some (s.perf.pausePoint.getD (s.strikeTime m)) }
      mgmt := { s.mgmt with flags := s.mgmt.flags ||| Flag.cue.mask } }) ∧
    (s.clock.timing[8] ≠ 1 ∨ s.perf.state ≠ .playing → cueOnset m s = counted)) ∧
  (∀ (openAt closeAt confirm n sample m : Nat) (mask : Bool) (d : Detector),
    (trackStep openAt closeAt confirm n sample ⟨.cue, mask⟩ d).onset = some m ↔
      d.raw = false ∧ mask = false ∧ (d.sense openAt closeAt confirm n sample).2 = some m) ∧
  ∀ (steps : Vector TrackStep 112) (s : State),
    handCues steps s = ((List.ofFn fun u : Track =>
      if s.reader.inForce[u] = .cue then steps[u].onset else none).filterMap id).foldl
        (fun t m => cueOnset m t) s

/-- The reader follows the paper sideways (R42, R43): the outermost dark cells give the measured shift, AlignHold lines
in a row above or below the applied shift move it by one cell, a line without a dark cell clears the runs, ALIGN_LIMIT
is set when a move reaches +8 or -8, and the shift never passes them. A track reads the cell at its place and the shift
(R44). A detector's candidate run (R45, R46): a sample that agrees with a change extends the run, whose first line is
kept; at Confirm the raw state changes, the run is cleared and the change is confirmed at the run first line; any other
sample clears the run and changes nothing else. -/
def Obligations.DetectorsConfirmRuns : Prop :=
  (∀ (d : Detector) (openAt closeAt confirm n sample : Nat),
    let agrees := (d.raw = false ∧ openAt ≤ sample) ∨ (d.raw = true ∧ sample ≤ closeAt)
    let first := if d.run = 0 then n else d.runFirst.getD n
    (agrees → confirm ≤ d.run + 1 → d.sense openAt closeAt confirm n sample =
      ({ d with raw := !d.raw, run := 0, runFirst := none }, some first)) ∧
    (agrees → d.run + 1 < confirm → d.sense openAt closeAt confirm n sample =
      ({ d with run := d.run + 1, runFirst := some first }, none)) ∧
    (¬agrees → d.sense openAt closeAt confirm n sample = ({ d with run := 0, runFirst := none }, none))) ∧
  (∀ (base : Nat) (shift : Int) (cells : Vector Byte 128) (u : Track),
    let place : Int := base + u.val + shift
    (∀ i : Fin 128, place = i.val → trackSample base shift cells u = cells[i].toNat) ∧
    (place < 0 ∨ 127 < place → trackSample base shift cells u = 0)) ∧
  ∀ (cells : Vector Byte 128) (s : State),
    let r := s.reader
    let hold := r.detect[5]
    let dark (i : Fin 128) : Prop := cells[i].toNat ≤ r.detect[6]
    let placed (shift : Int) (up down : Nat) : State :=
      { s with reader := { r with shift := shift, upRun := up, downRun := down } }
    let moved (shift : Int) : State :=
      if shift = 8 ∨ shift = -8 then raise .alignLimit (placed shift 0 0) else placed shift 0 0
    let out := alignLine cells s
    (r.detect[4] ≠ 1 → out = s) ∧
    (r.detect[4] = 1 → (∀ i, ¬dark i) → out = placed r.shift 0 0) ∧
    (∀ left right : Fin 128, r.detect[4] = 1 → dark left → dark right → (∀ i, dark i → left ≤ i ∧ i ≤ right) →
      let measured : Int := max (-8) (min 8 (Int.tdiv ((left.val : Int) + right.val - r.detect[7]) 2))
      (r.shift < measured → out = if hold ≤ r.upRun + 1 then moved (r.shift + 1) else placed r.shift (r.upRun + 1) 0) ∧
      (measured < r.shift →
        out = if hold ≤ r.downRun + 1 then moved (r.shift - 1) else placed r.shift 0 (r.downRun + 1)) ∧
      (measured = r.shift → out = placed r.shift 0 0)) ∧
    (-8 ≤ r.shift → r.shift ≤ 8 → -8 ≤ out.reader.shift ∧ out.reader.shift ≤ 8)

/-- A level channel's effective state and transition (R49): OPEN when raw OPEN and unmasked; a change is attributed to
the confirmed run's first line when the mask is clear and was clear, and to the line itself otherwise; an opening
records its line, a closing hands on the opening line it ends. On an accepted line every track takes this part with its
detector as the line's sample leaves it (R44 to R46), the function in force (R48), the mask flag held and the mask at
last line, which then takes the flag; an END or CUE track makes an onset where its detector confirms an opening unmasked
(R53), and an UNUSED one nothing. -/
def Obligations.LevelChannelsFollowRawStateAndMask : Prop :=
  (∀ (n : Nat) (mask before : Bool) (d : Detector) (confirmed : Option Nat),
    let x := levelStep n mask d confirmed before
    let line := if mask = false ∧ before = false then confirmed.getD n else n
    x.det.eff = (d.raw && !mask) ∧ x.onset = none ∧ x.det.raw = d.raw ∧
      (d.eff = x.det.eff → x.opening = none ∧ x.closing = none ∧ x.det = d) ∧
      (d.eff = false → x.det.eff = true → x.opening = some line ∧ x.closing = none ∧ x.det.openLine = some line) ∧
      (d.eff = true → x.det.eff = false →
        x.opening = none ∧ x.closing = some (line, d.openLine.getD line) ∧ x.det.openLine = none)) ∧
  (∀ (openAt closeAt confirm n sample : Nat) (e : RouteEntry) (d : Detector),
    let sensed := d.sense openAt closeAt confirm n sample
    let marked : Detector := { sensed.1 with maskLast := e.mask }
    let x := trackStep openAt closeAt confirm n sample e d
    let level : Prop := (∃ k, e.function = .note k) ∨ (∃ p, e.function = .pedal p) ∨ ∃ h b, e.function = .expr h b
    (e.function.isLevel = true ↔ level) ∧ x.det.maskLast = e.mask ∧ (level → x = levelStep n e.mask marked sensed.2 d.maskLast) ∧
      (¬level → x.det = marked ∧ x.opening = none ∧ x.closing = none) ∧
      (e.function = .endMark ∨ e.function = .cue →
        x.onset = if d.raw = false ∧ e.mask = false then sensed.2 else none) ∧
      (e.function = .unused → x.onset = none)) ∧
  (∀ (n : Nat) (cells : Vector Byte 128) (u : Track) (s : State),
    (trackSteps n cells s)[u] = trackStep s.reader.detect[1] s.reader.detect[2] s.reader.detect[3] n
      (trackSample s.reader.detect[0] s.reader.shift cells u) ⟨s.reader.inForce[u], s.reader.route[u].mask⟩
      s.reader.detectors[u]) ∧
  ∀ (steps : Vector TrackStep 112) (s : State),
    setDetectors steps s = { s with reader := { s.reader with detectors := Vector.ofFn fun u => steps[u].det } }

/-- A half's expression bits give its code, its rate and its accent (R56), the code and the Shading table its target,
and the level moves toward that target (R57); the effective level adds AccentBoost under an accent, to at most 1023
(R58), and the key's half reads the curve with it (R62, R69). The soft coupling is decided by R67, through the functions
in force (R48). A regulator's level moves toward its target by at most the rate and never past it (R57), and the
intensity of a strike lies within 1 to 1000 while SoftFactor is within its range (R68, R69). -/
def Obligations.LevelsAndIntensitiesStayInRange : Prop :=
  (∀ level target rate : Nat,
    let l := moveLevel level target rate
    (level ≤ target → level ≤ l ∧ l ≤ target ∧ (l = target ∨ l = level + rate)) ∧
      (target ≤ level → target ≤ l ∧ l ≤ level ∧ (l = target ∨ l + rate = level))) ∧
  (∀ (h : Half) (s : State),
    let isOpen (f : RouteFn) : Prop := ∃ u : Track, s.reader.inForce[u] = f ∧ s.reader.detectors[u].eff = true
    let bit (b : ExprBit) (weight : Nat) : Nat := if isOpen (.expr h b) then weight else 0
    let code := bit .int1 1 + bit .int2 2 + bit .int4 4
    let r := s.steppedRegulator h
    let now := s.regulator h
    now = (match h with | .bass => s.expr.bass | .treble => s.expr.treble) ∧
      (∃ i : Fin 22, i.val = (match h with | .bass => 0 | .treble => 8) + code ∧ r.target = s.expr.shading[i]) ∧
      r.code = code ∧ r.level = moveLevel now.level r.target r.rateValue ∧
      (isOpen (.expr h .fast) → r.rate = .fast ∧ r.rateValue = s.expr.shading[18]) ∧
      (¬isOpen (.expr h .fast) → isOpen (.expr h .slow) → r.rate = .slow ∧ r.rateValue = s.expr.shading[17]) ∧
      (¬isOpen (.expr h .fast) → ¬isOpen (.expr h .slow) → r.rate = .base ∧ r.rateValue = s.expr.shading[16]) ∧
      (r.accent = true ↔ isOpen (.expr h .accent)) ∧
      stepRegulators s = { s with expr := { s.expr with
        bass := s.steppedRegulator .bass, treble := s.steppedRegulator .treble } } ∧
      (now.accent = true → s.effectiveLevel h = min 1023 (now.level + s.expr.shading[19])) ∧
      (now.accent = false → s.effectiveLevel h = now.level) ∧
      (s.softApplies = true ↔
        (isOpen (.pedal .soft) ∨ s.pedals.soft.manual = true) ∧ s.pedals.soft.inhibit = false)) ∧
  (∀ (k : Key) (s : State) (e : Fin 256),
    s.effectiveLevel (if k.val + 1 < s.expr.shading[20] then .bass else .treble) / 4 = e.val →
      s.curveValue k = s.expr.curve[e]) ∧
  ∀ (k : Key) (s : State), s.expr.shading[21] ≤ 256 →
    1 ≤ s.strikeIntensity k ∧ s.strikeIntensity k ≤ 1000 ∧
      s.strikeIntensity k =
        let i := max 1 (min 1000 (s.curveValue k + s.expr.voicing[k]))
        if s.softApplies then max 1 (i.toNat * s.expr.shading[21] / 256) else i.toNat

/-- An END onset at line e (R16, R53): DRAINING, no loss timer and no pause point, END_OF_ROLL set, every level channel
CLOSED at the detector, every candidate run cleared. Each level channel that was open hands on a closing at line e, or
at its opening line where that is later, with its opening line, in ascending track number. The END onsets of one line
make one at the earliest of their lines, a masked END track makes none, and a line without one leaves the state (R53).
DRAINING ends (R17, R33, R97) when no ROLL record, entry or pending strike is left and every key is RESTING or OFFLINE:
the state is STOPPED with reason END, the roll's claims on the pedals go, a pending switch completes and STOPPED is set.
It is examined as an event ends, and TOUCH is set then if a key is in mismatch (R163). What stands for a missing opening
line (log 7) and the order of the two OFFs (log 5) is the model's choice. -/
def Obligations.EndOnsetClosesTheRoll : Prop :=
  (∀ (e : Nat) (s : State),
    let t := endOnset e s
    t.perf = { s.perf with state := .draining, lossTimer := none, pausePoint := none } ∧ t.flag .endOfRoll = true ∧
      (∀ u : Track, t.reader.detectors[u].run = 0 ∧ t.reader.detectors[u].runFirst = none) ∧
      ∀ u : Track, s.reader.inForce[u].isLevel = true →
        t.reader.detectors[u].eff = false ∧
          t.reader.detectors[u].raw = (s.reader.detectors[u].raw && !s.reader.detectors[u].eff)) ∧
  (∀ (e : Nat) (s : State),
    let detectors := Vector.ofFn fun u : Track =>
      let d := s.reader.detectors[u]
      if s.reader.inForce[u].isLevel = true ∧ d.eff = true then
        { d with raw := false, run := 0, runFirst := none, eff := false, openLine := none }
      else { d with run := 0, runFirst := none }
    let closings : List (RouteFn × Nat) := (List.ofFn fun u : Track =>
      let d := s.reader.detectors[u]
      if s.reader.inForce[u].isLevel = true ∧ d.eff = true then
        some (s.reader.inForce[u], d.openLine.getD e)
      else none).filterMap id
    let handed := closings.foldl (fun t c => match c.1 with
      | .note k => requestRelease k (max e c.2) c.2 t
      | .pedal p => requestPedalUp p (max e c.2) c.2 t
      | _ => t) { s with reader := { s.reader with detectors := detectors } }
    endOnset e s = { handed with
      perf := { s.perf with state := .draining, lossTimer := none, pausePoint := none }
      mgmt := { handed.mgmt with flags := handed.mgmt.flags ||| Flag.endOfRoll.mask } }) ∧
  (∀ (steps : Vector TrackStep 112) (s : State),
    let lines := (List.ofFn fun u : Track => if s.reader.inForce[u] = .endMark then steps[u].onset else none).filterMap id
    (lines = [] → handEnd steps s = s) ∧
      ∀ e ∈ lines, (∀ x ∈ lines, e ≤ x) → handEnd steps s = endOnset e s) ∧
  (∀ (openAt closeAt confirm n sample : Nat) (d : Detector),
    (trackStep openAt closeAt confirm n sample ⟨.endMark, true⟩ d).onset = none) ∧
  ∀ s : State,
    let pedal (r : PedalRec) : PedalRec := { r with roll := false, rollTag := none, memSet := false, memTag := none }
    let quiet : Prop := (∀ r ∈ s.sched.queue, r.tag.origin ≠ .roll) ∧ s.sched.deferral = [] ∧
      ∀ k, (s.key k).pending = none ∧ ((s.key k).phase = .resting ∨ (s.key k).phase = .offline)
    let finished : Prop := s.perf.state = .draining ∧ quiet
    let ended : State := { s with
      perf := { s.perf with state := .stopped, stopReason := .ended }
      clock := { s.clock with base := s.clock.switch.getD s.clock.base, switch := none }
      pedals := { sustain := (s.pedalTakes .sustain (pedal s.pedals.sustain)).1
                  soft := (s.pedalTakes .soft (pedal s.pedals.soft)).1 }
      mgmt := { s.mgmt with flags := s.mgmt.flags ||| Flag.stopped.mask }
      link := { s.link with sentDrive := s.link.sentDrive ++ s.pedalSends pedal } }
    let touched (t : State) : State :=
      { t with mgmt := { t.mgmt with flags := t.mgmt.flags ||| Flag.touch.mask } }
    let mismatch : Prop := ∃ k, (s.key k).phase = .resting ∧ (s.key k).observed ≠ (s.key k).snapshot
    (s.drained = true ↔ quiet) ∧ (s.anyMismatch = true ↔ mismatch) ∧ (finished → ¬mismatch → settle s = ended) ∧ (finished → mismatch → settle s = touched ended) ∧
      (¬finished → ¬mismatch → settle s = s) ∧ (¬finished → mismatch → settle s = touched s)

/-! ### Table loads, masks and the profile -/

/-- LOAD of SHADING, CURVE, VOICING and ADAPTPARAM (R61, R64, R66, R153): taken in every state, applied whole after
clamping each value to the range of its entry (R60, R63, R65, R152); INVALID with nothing changed for a load that
addresses an index beyond the table or no entry, and for a curve that would fall anywhere. -/
def Obligations.LoadsReplaceTheirEntries : Prop :=
  ∀ (id : Byte) (l : Load (BitVec 16)) (s : State), s.ready → s.settled →
    let invalid := s.nowDue [.response id .invalid []]
    let shadingEntry (i : Nat) : Nat × Nat :=
      if i < 16 then (0, 1023) else if i < 19 then (1, 255) else if i = 19 then (0, 512) else if i = 20 then (2, 88)
      else (128, 256)
    let adaptEntry (i : Nat) : Nat × Nat := if i = 0 then (1000, 20000) else (2, 8)
    let shading := loadTakes shadingEntry s.expr.shading l
    let curve := loadTakes (fun _ => (0, 1000)) s.expr.curve l
    let adapt := loadTakes adaptEntry s.calib.adaptParam l
    let voices := l.entries.map fun v => max (-200) (min 200 v.toInt)
    let voicing : Vector Int 88 := Vector.ofFn fun k =>
      if l.first.toNat ≤ k.val ∧ k.val < l.first.toNat + l.entries.length then voices.getD (k.val - l.first.toNat) 0
      else s.expr.voicing[k]
    exec (.loadShading id (.good l)) s = .next
      (if loadFits 22 l then
        State.nowDue { s with expr := { s.expr with shading := shading.1 } } [.response id shading.2 []]
      else invalid) ∧
    exec (.loadCurve id (.good l)) s = .next
      (if loadFits 256 l ∧ ∀ i : Fin 255, curve.1[i.val] ≤ curve.1[i.val + 1] then
        State.nowDue { s with expr := { s.expr with curve := curve.1 } } [.response id curve.2 []]
      else invalid) ∧
    exec (.loadVoicing id (.good l)) s = .next
      (if loadFits 88 l then
        State.nowDue { s with expr := { s.expr with voicing := voicing } }
          [.response id (loadAnswer (l.entries.map BitVec.toInt) voices) []]
      else invalid) ∧
    exec (.loadAdaptParam id (.good l)) s = .next
      (if loadFits 2 l then
        State.nowDue { s with calib := { s.calib with adaptParam := adapt.1 } } [.response id adapt.2 []]
      else invalid)

/-- LOAD of TIMING (R22), in its order: clamp each value to the range of its entry (R21), a pedal lead to 0 to 490,000;
INVALID if a pedal lead exceeds the resulting D less 10,000; BUSY for a new D outside STOPPED; INTERLOCK for a new P_nom
with the loop running. LOAD of DETECT (R40): in STOPPED only, each value clamped to the range of its entry (R39);
INVALID if CloseThreshold would not be below OpenThreshold. -/
def Obligations.GuardedLoadsKeepTheirBounds : Prop :=
  ∀ (id : Byte) (s : State), s.ready → s.settled →
    let refused (r : Result) : State := s.nowDue [.response id r []]
    let timingEntry (i : Nat) : Nat × Nat :=
      if i = 0 then (250, 8000) else if i = 1 then (100000, 500000) else if i = 2 then (50, 2000)
      else if i = 3 then (0, 100) else if i = 8 then (0, 1) else (0, 490000)
    let detectEntry (i : Nat) : Nat × Nat :=
      if i = 0 then (0, 16) else if i = 1 then (1, 255) else if i = 2 then (0, 254) else if i = 3 then (1, 4)
      else if i = 4 then (0, 1) else if i = 5 then (8, 255) else if i = 6 then (0, 255) else (0, 254)
    (∀ l : Load (BitVec 32),
      let t := loadTakes timingEntry s.clock.timing l
      exec (.loadTiming id (.good l)) s = .next
        (if ¬loadFits 9 l then refused .invalid
        else if ∃ i : Fin 4, t.1[1] < t.1[i.val + 4] + 10000 then refused .invalid
        else if t.1[1] ≠ s.clock.timing[1] ∧ s.perf.state ≠ .stopped then refused .busy
        else if t.1[0] ≠ s.clock.timing[0] ∧ s.clock.loop.mode ≠ .off then refused .interlock
        else State.nowDue { s with clock := { s.clock with timing := t.1 } } [.response id t.2 []])) ∧
    ∀ l : Load Byte,
      let t := loadTakes detectEntry s.reader.detect l
      exec (.loadDetect id (.good l)) s = .next
        (if l.entries = [] then refused .invalid
        else if s.perf.state ≠ .stopped then refused .busy
        else if ¬loadFits 8 l then refused .invalid
        else if t.1[1] ≤ t.1[2] then refused .invalid
        else State.nowDue { s with reader := { s.reader with detect := t.1 } } [.response id t.2 []])

/-- LOAD of ROUTE (R48), in STOPPED only: the entries, functions and masks together, unless an entry is none that R47
lists or the resulting table holds a level function twice, and the functions in force stay as they are until the next
START. Which function, parameter and mask bytes are an entry, and which entry (R47, R48, R181); a load replaces the
entries it addresses and keeps the others (R168). MASK (R50), in every state: the listed tracks' masks, or INVALID if a
track exceeds 111. -/
def Obligations.RouteLoadsAndMasksAreTakenWhole : Prop :=
  (∀ (r : RawRoute) (e : RouteEntry), routeEntry? r = some e ↔
    r.mask.toNat = (if e.mask then 1 else 0) ∧
    let coded (function parameter : Nat) : Prop := r.function.toNat = function ∧ r.parameter.toNat = parameter
    match e.function with
    | .unused => coded 0 0
    | .note k => coded 1 (k.val + 1)
    | .pedal p => coded 2 (match p with | .sustain => 0 | .soft => 1)
    | .expr h b => coded 3 (16 * (match h with | .bass => 0 | .treble => 1) +
        (match b with | .int1 => 0 | .int2 => 1 | .int4 => 2 | .slow => 3 | .fast => 4 | .accent => 5))
    | .endMark => coded 4 0
    | .cue => coded 5 0) ∧
  (∀ (α : Type) (n : Nat) (held : Vector α n) (first : Nat) (loaded : List α) (i : Fin n),
    (∀ j, first + j = i.val → ∀ v, loaded[j]? = some v → (overlay held first loaded)[i] = v) ∧
      (i.val < first ∨ first + loaded.length ≤ i.val → (overlay held first loaded)[i] = held[i])) ∧
  ∀ (id : Byte) (s : State), s.ready → s.settled →
    let refused (r : Result) : State := s.nowDue [.response id r []]
    (∀ l : Load RawRoute,
      (l.entries ≠ [] → s.perf.state ≠ .stopped → exec (.loadRoute id (.good l)) s = .next (refused .busy)) ∧
      (¬loadFits 112 l → l.entries = [] ∨ s.perf.state = .stopped →
        exec (.loadRoute id (.good l)) s = .next (refused .invalid)) ∧
      (loadFits 112 l → s.perf.state = .stopped → (∃ e ∈ l.entries, routeEntry? e = none) →
        exec (.loadRoute id (.good l)) s = .next (refused .invalid)) ∧
      ∀ es : List RouteEntry, loadFits 112 l → s.perf.state = .stopped → l.entries.map routeEntry? = es.map some →
        let route := overlay s.reader.route l.first.toNat es
        exec (.loadRoute id (.good l)) s = .next
          (if ∃ t u : Track, t ≠ u ∧ route[t].function.isLevel = true ∧ route[t].function = route[u].function then
            refused .invalid
          else State.nowDue { s with reader := { s.reader with route := route } } [.response id .ok []])) ∧
    ∀ (on : Bool) (tracks : List Byte),
      exec (if on then .maskSet id (.good tracks) else .maskClear id (.good tracks)) s = .next
        (if ∀ t ∈ tracks, t.toNat ≤ 111 then
          State.nowDue { s with reader := { s.reader with route := Vector.ofFn fun t =>
            if ∃ x ∈ tracks, x.toNat = t.val then { s.reader.route[t] with mask := on } else s.reader.route[t] } }
            [.response id .ok []]
        else refused .invalid)

/-- LOAD of CALIBRATION (R72): in every state; each value clamped, then INVALID unless every loaded record's intensities
rise strictly; the records replace their keys' records, and the corrections and notes stay. -/
def Obligations.CalibrationLoadsReplaceRecords : Prop :=
  ∀ (id : Byte) (l : Load RawCal) (s : State), s.ready → s.settled →
    let point (p : RawPoint) : CalPoint :=
      ⟨max 1 (min 1000 p.intensity.toNat), max 500 (min 25000 p.width.toNat), max 1000 (min 60000 p.lead.toNat)⟩
    let given (p : RawPoint) : CalPoint := ⟨p.intensity.toNat, p.width.toNat, p.lead.toNat⟩
    let records := l.entries.map fun r =>
      (⟨point r.p0, point r.p1, point r.p2, point r.p3, min 30000 r.rl.toNat⟩ : CalRec)
    exec (.loadCalibration id (.good l)) s = .next
      (if loadFits 88 l ∧ ∀ r ∈ records, r.p0.intensity < r.p1.intensity ∧ r.p1.intensity < r.p2.intensity ∧
          r.p2.intensity < r.p3.intensity then
        State.nowDue { s with strike := { s.strike with calib := overlay s.strike.calib l.first.toNat records } }
          [.response id (loadAnswer
            (l.entries.map fun r => (⟨given r.p0, given r.p1, given r.p2, given r.p3, r.rl.toNat⟩ : CalRec)) records) []]
      else s.nowDue [.response id .invalid []])

/-- PROFILE (R169, R140, R141): ONCE if one is written; INVALID with nothing changed if it does not pass; else written:
each Board record takes its entry, present boards are ENABLED and the others ABSENT, keys on an enabled board become
RESTING, each pedal's commanded state is worked out, and the answer is CLAMPED if a value was clamped. The order of the
two PULSEs is the model's choice (log 5), and so is that the form check precedes ONCE (log 12). -/
def Obligations.ProfileIsWrittenOnce : Prop :=
  ∀ (id : Byte) (r : RawProfile) (s : State), s.ready → s.settled →
    (s.port.profile ≠ none → exec (.profile id (.good r)) s = .next (s.nowDue [.response id .once []])) ∧
    (s.port.profile = none → profileOf? r = none →
      exec (.profile id (.good r)) s = .next (s.nowDue [.response id .invalid []])) ∧
    ∀ p, s.port.profile = none → profileOf? r = some p →
      let boards : Vector BoardRec 4 := Vector.ofFn fun b =>
        { s.board b with
          present := r.boards[b].present
          service := if r.boards[b].present then .enabled else .disabled .absent
          params := some (boardParams r.boards[b]) }
      let written : State := { s with port := { boards := boards, profile := some p } }
      exec (.profile id (.good r)) s = .next (State.replied (settle { written with
        keys := Vector.ofFn fun k =>
          if p.keys[k].board ≠ none then { s.key k with phase := .resting } else s.key k
        pedals := { sustain := (written.pedalTakes .sustain s.pedals.sustain).1
                    soft := (written.pedalTakes .soft s.pedals.soft).1 }
        link := { s.link with sentDrive := s.link.sentDrive ++ written.pedalSends fun r => r } })
        s.mgmt.flags id (if profileClamped r then .clamped else .ok))

/-- Which profiles pass (R140), step by step: boards and channels in range, targets on present boards only, and no board
and channel for two targets. What one that passes holds (R139): the maps as they are carried, and each parameter as
stated, clamped to its range, or its default. When a value was clamped, which the answer CLAMPED says. So the targets of
a profile that passes stand on present boards and channels of their own, and its parameters lie in their ranges. -/
def Obligations.ProfilesThatPassAreSound : Prop :=
  ∀ r : RawProfile,
    let boardOk (b : Byte) : Prop := b.toNat < 4 ∨ b = 0xFF
    let targets : List (Byte × BitVec 5) := (List.ofFn fun k : Key => (r.keys[k].board, r.keys[k].channel)) ++
      [(r.sustain.board, r.sustain.channel), (r.soft.board, r.soft.channel)]
    let inRange : Prop := ∀ x ∈ targets, boardOk x.1 ∧ x.2.toNat < 24
    let onPresent : Prop := ∀ x ∈ targets, ∀ b : Board, x.1.toNat = b.val → r.boards[b].present = true
    let apart : Prop := (targets.filter (·.1 ≠ 0xFF)).Nodup
    let param {w : Nat} (lo hi dflt : Nat) (v : Option (BitVec w)) : Nat := match v with
      | some x => max lo (min hi x.toNat)
      | none => dflt
    let beyond {w : Nat} (lo hi : Nat) (v : Option (BitVec w)) : Prop := ∃ x, v = some x ∧ (x.toNat < lo ∨ hi < x.toNat)
    let wired (raw : Byte) (b : Option Board) : Prop := (b = none ↔ raw = 0xFF) ∧ ∀ x, b = some x → x.val = raw.toNat
    (profileOf? r ≠ none ↔ inRange ∧ onPresent ∧ apart) ∧
      (∀ b : Board, boardParams r.boards[b] =
        { mB := param 1 24 8 r.boards[b].mB, holdDuty := param 0 255 48 r.boards[b].holdDuty
          engageWidth := param 2000 40000 20000 r.boards[b].engageWidth
          pedalHoldDuty := param 0 255 96 r.boards[b].pedalHoldDuty }) ∧
      (profileClamped r = true ↔
        (∃ b : Board, beyond 1 24 r.boards[b].mB ∨ beyond 2000 40000 r.boards[b].engageWidth) ∨ beyond 1 64 r.mTot ∨
          beyond 1 60 r.holdLimit ∨ beyond 40 500 r.returnTimeout ∨ beyond 20 300 r.returnTime) ∧
      (∀ p : Profile, profileWires p =
        ((List.ofFn fun k : Key => p.keys[k].board.map fun b => (b, p.keys[k].channel)) ++
          [p.sustain.board.map fun b => (b, p.sustain.channel), p.soft.board.map fun b => (b, p.soft.channel)]).filterMap id) ∧
      ∀ p : Profile, profileOf? r = some p →
        (∀ k : Key, wired r.keys[k].board p.keys[k].board ∧ p.keys[k].channel = r.keys[k].channel.toNat ∧
          p.keys[k].sensor = r.keys[k].sensor) ∧
        (wired r.sustain.board p.sustain.board ∧ p.sustain.channel = r.sustain.channel.toNat) ∧
        (wired r.soft.board p.soft.board ∧ p.soft.channel = r.soft.channel.toNat) ∧
        p.mTot = param 1 64 20 r.mTot ∧ p.holdLimit = param 1 60 20 r.holdLimit ∧
        p.returnTimeout = param 40 500 150 r.returnTimeout ∧ p.returnTime = param 20 300 80 r.returnTime ∧
        (profileWires p).Nodup ∧ (∀ w ∈ profileWires p, r.boards[w.1].present = true ∧ w.2 < 24) ∧
        (1 ≤ p.mTot ∧ p.mTot ≤ 64) ∧ (1 ≤ p.holdLimit ∧ p.holdLimit ≤ 60) ∧
        (40 ≤ p.returnTimeout ∧ p.returnTimeout ≤ 500) ∧ (20 ≤ p.returnTime ∧ p.returnTime ≤ 300) ∧
        ∀ b : Board, 1 ≤ (boardParams r.boards[b]).mB ∧ (boardParams r.boards[b]).mB ≤ 24 ∧
          2000 ≤ (boardParams r.boards[b]).engageWidth ∧ (boardParams r.boards[b]).engageWidth ≤ 40000

/-! ### Pedals -/

/-- The PEDAL requests set and clear MANUAL and INHIBIT, and the pedal follows by the table of R88 (R91); at the engage
end an ENGAGING pedal is held at its duty, or let go if its release waits (R89). The pulse's width and the duty are
those of the pedal's board (R88, R89), and a pedal is commanded down by a source, uninhibited, on a board in service
(R87). That ENGAGE_END does nothing in any other case is the model's choice (log 2). -/
def Obligations.PedalsFollowTheirSources : Prop :=
  ∀ (id : Byte) (p : Pedal) (s : State), s.settled →
    let r := s.pedal p
    (∀ b channel x, s.pedalWire p = some (b, channel) → (s.board b).params = some x →
      s.engageWidth p = x.engageWidth ∧ s.pedalHoldDuty p = x.pedalHoldDuty) ∧
    (s.commandedDown p = true ↔ (∃ b channel, s.pedalWire p = some (b, channel) ∧ (s.board b).service = .enabled) ∧
      r.inhibit = false ∧ (r.roll = true ∨ r.manual = true)) ∧
    (r.towardDown = true ↔ r.phase = .down ∨ (r.phase = .engaging ∧ r.relWait = false)) ∧
    (∀ q, setPedal p q s = { s with pedals := match p with
      | .sustain => { s.pedals with sustain := q }
      | .soft => { s.pedals with soft := q } }) ∧
    (∀ f, changePedal p f s = setPedal p (s.pedalTakes p (f r)).1 { s with link := { s.link with sentDrive :=
      s.link.sentDrive ++ ((s.pedalTakes p (f r)).2.bind fun a => driveCmd (s.pedalWire p) a).toList } }) ∧
    let takes (q : PedalRec) : State :=
      let sends := ((s.pedalTakes p q).2.bind fun a => driveCmd (s.pedalWire p) a).toList
      State.nowDue (setPedal p (s.pedalTakes p q).1
        { s with link := { s.link with sentDrive := s.link.sentDrive ++ sends } }) [.response id .ok []]
    (s.ready →
      exec (.pedalAssert id (.good p)) s = .next (takes { r with manual := true }) ∧
      exec (.pedalDeassert id (.good p)) s = .next (takes { r with manual := false }) ∧
      exec (.pedalInhibit id (.good p)) s = .next (takes { r with inhibit := true }) ∧
      exec (.pedalUninhibit id (.good p)) s = .next (takes { r with inhibit := false })) ∧
    (∀ t, r.phase = .engaging → r.engageEnd = some t → t ≤ s.clock.actionTime →
      exec (.engageEnd p) s = .next
        (if r.relWait then
          setPedal p { r with phase := .up, relWait := false, engageEnd := none } (sendPedal p .off s)
        else
          setPedal p { r with phase := .down, engageEnd := none } (sendPedal p (.hold (s.pedalHoldDuty p)) s))) ∧
    ((r.phase ≠ .engaging ∨ r.engageEnd = none ∨ ∃ t, r.engageEnd = some t ∧ s.clock.actionTime < t) →
      exec (.engageEnd p) s = .next s)

/-! ### The Fire Queue -/

/-- DISPATCH (R104): when play time runs and has reached the head record's fire time, the record leaves the queue and is
handed to its target with the values it carries (R105, R94). That one DISPATCH hands on one record (log 11), and that it
does nothing in any other case (log 2), is the model's choice. -/
def Obligations.DispatchHandsTheHeadRecord : Prop :=
  (∀ (r : FireRecord) (t : State), handRecord r t = match r.kind with
    | .strike k v => strikeReaches k ⟨r.tag, v, r.fire, false⟩ t
    | .release k => releaseReaches k r.tag t
    | .pedalDown p => changePedal p (fun q => { q with roll := true, rollTag := some r.tag }) t
    | .pedalUp p =>
      if (t.pedal p).roll = true ∧ (t.pedal p).rollTag = some r.tag then
        changePedal p (fun q => { q with roll := false, rollTag := none }) t
      else t) ∧
  ∀ s : State,
    (∀ r rest, s.sched.queue = r :: rest → s.perf.state ≠ .paused → r.fire ≤ s.playTime →
      exec .dispatch s = .next
        ((settle (handRecord r { s with sched := { s.sched with queue := rest } })).ended s.mgmt.flags)) ∧
    ((s.perf.state = .paused ∨ s.sched.queue = [] ∨ ∃ r rest, s.sched.queue = r :: rest ∧ s.playTime < r.fire) →
      exec .dispatch s = .next s)

/-- A STRIKE or PEDAL_DOWN goes in with its release reserved, or is refused with QUEUE_FULL (R101); a release takes the
reserved space, or ends a refusal (R102); a record takes its place behind those that fire at or before it, and one whose
time has come is handed on at once, behind the due records that stand before it (R100). The owed tag and the refused tag
are those of the record's key or pedal, and no other target's change. -/
def Obligations.OnsetsReserveTheirReleases : Prop :=
  (∀ (kind : FireKind) (tag : Option Tag) (s : State),
    match kind with
    | .strike k _ | .release k =>
      s.targetTags kind = ((s.key k).owed, (s.key k).refused) ∧
        setOwed kind tag s = { s with keys := s.keys.set k { s.key k with owed := tag } } ∧
        setRefused kind tag s = { s with keys := s.keys.set k { s.key k with refused := tag } }
    | .pedalDown p | .pedalUp p =>
      s.targetTags kind = ((s.pedal p).owed, (s.pedal p).refused) ∧
        setOwed kind tag s = setPedal p { s.pedal p with owed := tag } s ∧
        setRefused kind tag s = setPedal p { s.pedal p with refused := tag } s) ∧
  ∀ (r : FireRecord) (s : State),
    let withOwed (n : Nat) : State := { s with sched := { s.sched with owed := n } }
    let load := s.sched.queue.length + s.sched.owed
    let placed := s.sched.queue.takeWhile (·.fire ≤ r.fire) ++ r :: s.sched.queue.dropWhile (·.fire ≤ r.fire)
    (load + 2 ≤ 256 → admitOnset r s = enqueue r (setOwed r.kind (some r.tag) (withOwed (s.sched.owed + 1)))) ∧
    (256 < load + 2 → admitOnset r s =
      raise .queueFull (count .queueRefusals (setRefused r.kind (some r.tag) s))) ∧
    ((s.targetTags r.kind).1 = some r.tag → admitRelease r s =
      enqueue r (setOwed r.kind none (withOwed (s.sched.owed - 1)))) ∧
    ((s.targetTags r.kind).1 ≠ some r.tag → (s.targetTags r.kind).2 = some r.tag →
      admitRelease r s = setRefused r.kind none s) ∧
    (s.playTime < r.fire ∨ s.perf.state = .paused →
      enqueue r s = { s with sched := { s.sched with queue := placed } }) ∧
    (∀ x rest, s.sched.queue = x :: rest → x.fire ≤ r.fire → r.fire ≤ s.playTime → s.perf.state ≠ .paused →
      enqueue r s = enqueue r (handRecord x { s with sched := { s.sched with queue := rest } })) ∧
    (r.fire ≤ s.playTime → s.perf.state ≠ .paused → (∀ x ∈ s.sched.queue, s.playTime < x.fire) →
      enqueue r s = handRecord r s)

/-- What an opening or closing hands the Scheduler: a strike fires at its line's time plus D less its effective lead, a
release at its line's time plus D less the release lead, raised to its own strike's fire time (R78 to R80); pedal
records likewise (R92, R93). A line in the history gives its recorded line time (R38, R52, R78). For every intensity, a
probe's too (R82), width and lead are interpolated between the calibrated points (R76), the correction is added and the
lead clamped (R77). The sum of line time and D is held at the largest play time and the lead is then taken off it (R78,
R92); that a release time and a pedal's up time are held in the same way (log 3), and that a line which has left the
history takes the newest time (log 7), is the model's choice. -/
def Obligations.RecordsCarryTheirTimes : Prop :=
  ∀ (k : Key) (p : Pedal) (line opening : Nat) (s : State),
    let v := s.strikeVals k (s.strikeIntensity k)
    let strikeTime := min maxTime (s.timeOf line + s.clock.timing[1])
    let fire := strikeTime - v.leadEff
    let tag : Tag := ⟨.roll, line⟩
    let cal := s.strike.calib[k]
    let released := strikeTime - cal.rl
    let down := strikeTime - (match p with | .sustain => s.clock.timing[4] | .soft => s.clock.timing[5])
    let up := strikeTime - (match p with | .sustain => s.clock.timing[6] | .soft => s.clock.timing[7])
    let segment (i : Nat) (a b : CalPoint) (f : CalPoint → Nat) : Int :=
      f a + Int.tdiv (((f b : Int) - f a) * ((i : Int) - a.intensity)) ((b.intensity : Int) - a.intensity)
    let has (x : StrikeVals) (width lead : Int) : Prop :=
      (x.width : Int) = width ∧ (x.leadEff : Int) = max 1000 (min 60000 (lead + (s.key k).correction))
    let between (i : Nat) (a b : CalPoint) : Prop := a.intensity ≤ i → i < b.intensity →
      has (s.strikeVals k i) (segment i a b (·.width)) (segment i a b (·.lead))
    maxTime = 281474976710655 ∧
    (∀ before st after, s.intake.history = before ++ st :: after → st.line = line → (∀ x ∈ before, x.line ≠ line) →
      s.timeOf line = st.time) ∧
    ((∀ x ∈ s.intake.history, x.line ≠ line) → s.timeOf line = (s.intake.history.getLast?.map (·.time)).getD 0) ∧
    s.strikeTime line = strikeTime ∧
    (∀ i : Nat, (s.strikeVals k i).intensity = i ∧ (s.strikeVals k i).cUsed = (s.key k).correction ∧
      (cal.p0.intensity < cal.p1.intensity → cal.p1.intensity < cal.p2.intensity → cal.p2.intensity < cal.p3.intensity →
        (i < cal.p0.intensity → has (s.strikeVals k i) cal.p0.width cal.p0.lead) ∧
        between i cal.p0 cal.p1 ∧ between i cal.p1 cal.p2 ∧ between i cal.p2 cal.p3 ∧
        (cal.p3.intensity ≤ i → has (s.strikeVals k i) cal.p3.width cal.p3.lead))) ∧
    requestStrike k line s = admitOnset ⟨.strike k v, tag, fire⟩ { s with strike := { s.strike with
      lastNotes := s.strike.lastNotes.set k (some ⟨tag, s.strikeIntensity k, v.width, v.leadEff, fire⟩) } } ∧
    (∀ note, s.strike.lastNotes[k] = some note → note.tag = ⟨.roll, opening⟩ →
      requestRelease k line opening s = admitRelease ⟨.release k, ⟨.roll, opening⟩, max released note.fire⟩ s) ∧
    ((∀ note, s.strike.lastNotes[k] = some note → note.tag ≠ ⟨.roll, opening⟩) →
      requestRelease k line opening s = admitRelease ⟨.release k, ⟨.roll, opening⟩, released⟩ s) ∧
    requestPedalDown p line s = admitOnset ⟨.pedalDown p, tag, down⟩
      (setPedal p { s.pedal p with lastDown := some ⟨tag, down⟩ } s) ∧
    (∀ note, (s.pedal p).lastDown = some note → note.tag.number = opening →
      requestPedalUp p line opening s = admitRelease ⟨.pedalUp p, ⟨.roll, opening⟩, max up note.fire⟩ s) ∧
    ((∀ note, (s.pedal p).lastDown = some note → note.tag.number ≠ opening) →
      requestPedalUp p line opening s = admitRelease ⟨.pedalUp p, ⟨.roll, opening⟩, up⟩ s)

/-! ### Keys and slots -/

/-- A strike reaches a key (R119 to R122): a RESTING key is pulsed if its board and the total have a free slot, and else
deferred; a busy key parks it, counting the strike it supersedes; an OFFLINE key discards it, which ends its probe. The
limits are M_b of the board's record and M_tot of the profile (R106). -/
def Obligations.StrikesReachTheirKeys : Prop :=
  ∀ (k : Key) (st : Strike) (s : State),
    let r := s.key k
    let keyed (q : KeyRec) : State := { s with keys := s.keys.set k q }
    (∀ b x, (s.board b).params = some x → s.boardLimit b = x.mB) ∧
    (∀ p, s.port.profile = some p → s.totalLimit = p.mTot) ∧
    (∀ d, s.expiry d = min 281474976710655 (s.clock.actionTime + d)) ∧
    (∀ tag, s.isBusyProbe tag = true ↔ ∃ p, s.calib.probe = some p ∧ p.busy = true ∧ tag = some ⟨.probe, p.serial⟩) ∧
    (∀ b c, r.phase = .resting → s.keyWire k = some (b, c) → (s.board b).inFlight < s.boardLimit b →
      s.sched.total < s.totalLimit → strikeReaches k st s = pulseKey k st s) ∧
    (∀ b c, s.keyWire k = some (b, c) →
      pulseKey k st s = { keyed { r with
          phase := .striking, pulseEnd := some (s.expiry st.vals.width), current := some st.tag
          expLead := some st.vals.leadEff, pulseSent := true, relWait := st.relWait, strikeSeen := false
          cutShort := false } with
        sched := { s.sched with total := s.sched.total + 1 }
        port := { s.port with boards := s.port.boards.set b { s.board b with inFlight := (s.board b).inFlight + 1 } }
        link := { s.link with sentDrive := s.link.sentDrive ++ [⟨b, c, .pulse st.vals.width⟩] } }) ∧
    (r.phase = .resting →
      (s.totalLimit ≤ s.sched.total ∨ s.keyWire k = none ∨
        ∃ b c, s.keyWire k = some (b, c) ∧ s.boardLimit b ≤ (s.board b).inFlight) →
      strikeReaches k st s = joinDeferral k st s) ∧
    (joinDeferral k st s = { keyed { r with phase := .deferred, current := some st.tag } with
        sched := { s.sched with deferral :=
          s.sched.deferral.takeWhile (·.strike.fire ≤ st.fire) ++
            ⟨k, st⟩ :: s.sched.deferral.dropWhile (·.strike.fire ≤ st.fire) } }) ∧
    ((r.phase = .deferred ∨ r.phase = .striking ∨ r.phase = .held ∨ r.phase = .releasing) →
      let parked := keyed { r with pending := some { st with relWait := false } }
      strikeReaches k st s = if r.pending = none then parked else count .supersededStrikes parked) ∧
    (r.phase = .offline →
      let t := count .offlineDiscards s
      strikeReaches k st s =
        if s.isBusyProbe (some st.tag) then
          raise .probeDone { t with calib := { s.calib with probe := s.calib.probe.map fun p =>
            { p with busy := false, result := some .none, endCause := some .offline } } }
        else t)

/-- The arbiter (R112, R113): it stops when the total is full or no entry's board has a free slot; it takes the first
entry that could go, drops it if it is late by more than LateLimit, in ms (R113), and else pulses its key, and goes on;
it leaves no entry that could go. -/
def Obligations.ArbiterServesTheDeferralList : Prop :=
  ∀ s : State,
    let canGo (t : State) (e : DeferralEntry) : Prop :=
      ∃ b c, t.keyWire e.key = some (b, c) ∧ (t.board b).inFlight < t.boardLimit b
    s.lateLimit = s.clock.timing[3] * 1000 ∧
    (∀ e, s.grantable e = true ↔ canGo s e ∧ s.sched.total < s.totalLimit) ∧
    (∀ tag cause, endProbe tag cause s = if s.isBusyProbe tag then
      raise .probeDone { s with calib := { s.calib with probe := s.calib.probe.map fun p =>
        { p with busy := false, result := some .none, endCause := some cause } } }
      else s) ∧
    (s.totalLimit ≤ s.sched.total → runArbiter s = s) ∧
    ((∀ e ∈ s.sched.deferral, ¬canGo s e) → runArbiter s = s) ∧
    (∀ before e after, s.sched.deferral = before ++ e :: after → (∀ x ∈ before, ¬canGo s x) → canGo s e →
      s.sched.total < s.totalLimit →
      let taken : State := { s with sched := { s.sched with deferral := before ++ after } }
      let rested := restNotice e.key (endProbe (some e.strike.tag) .late (raise .lateDrop (count .lateDrops taken)))
      let dropped := match (s.key e.key).pending with
        | none => rested
        | some st => joinDeferral e.key st
          { rested with keys := rested.keys.set e.key { rested.key e.key with pending := none } }
      runArbiter s = runArbiter
        (if s.lateLimit < s.playTime - e.strike.fire then dropped else pulseKey e.key e.strike taken)) ∧
    ((runArbiter s).totalLimit ≤ (runArbiter s).sched.total ∨
      ∀ e ∈ (runArbiter s).sched.deferral, ¬canGo (runArbiter s) e)

/-- A release reaches a key (R124), the first rule that holds deciding: a STRIKING key's release waits, a HELD key is
let go, a DEFERRED key's entry is marked, a pending strike is marked; any other release is stale and changes nothing. -/
def Obligations.ReleasesMatchByTag : Prop :=
  ∀ (k : Key) (tag : Tag) (s : State),
    let r := s.key k
    let keyed (q : KeyRec) : State := { s with keys := s.keys.set k q }
    let driven : Prop := r.current = some tag ∧ (r.phase = .striking ∨ r.phase = .held)
    let listed : Prop := r.phase = .deferred ∧ ∃ e ∈ s.sched.deferral, e.key = k ∧ e.strike.tag = tag
    (r.current = some tag → r.phase = .striking → releaseReaches k tag s = keyed { r with relWait := true }) ∧
    (r.current = some tag → r.phase = .held →
      releaseReaches k tag s = { keyed { r with
          phase := .releasing, relWait := false, pulseEnd := none, holdLimit := none
          returnTimer := some (s.returnTimerFor k) } with
        link := { s.link with sentDrive := s.link.sentDrive ++ (driveCmd (s.keyWire k) .off).toList } }) ∧
    (listed → releaseReaches k tag s = { s with sched := { s.sched with
      deferral := s.sched.deferral.map fun e =>
        if e.key = k then { e with strike := { e.strike with relWait := true } } else e } }) ∧
    (∀ st, ¬driven → ¬listed → r.pending = some st → st.tag = tag →
      releaseReaches k tag s = keyed { r with pending := some { st with relWait := true } }) ∧
    (¬driven → ¬listed → (∀ st, r.pending = some st → st.tag ≠ tag) → releaseReaches k tag s = s)

/-- PULSE_END (R123): the key's slot is freed and the arbiter runs unless the state is PAUSED (R108); then the key is
let go if its release waits, and else held at its board's duty with its hold limit set, HoldLimit seconds later (R139).
That PULSE_END does nothing in any other case is the model's choice (log 2). -/
def Obligations.PulseEndFreesTheSlot : Prop :=
  ∀ (k : Key) (s : State),
    (∀ b channel x, s.keyWire k = some (b, channel) → (s.board b).params = some x → s.holdDuty k = x.holdDuty) ∧
    (∀ p, s.port.profile = some p → s.holdLimitTime = p.holdLimit * 1000000) ∧
    (∀ t b c, (s.key k).phase = .striking → (s.key k).pulseEnd = some t → t ≤ s.clock.actionTime →
      s.keyWire k = some (b, c) →
      let freed : State := { s with
        keys := s.keys.set k { s.key k with pulseEnd := none }
        sched := { s.sched with total := s.sched.total - 1 }
        port := { s.port with boards := s.port.boards.set b { s.board b with inFlight := (s.board b).inFlight - 1 } } }
      let u := if s.perf.state = .paused then freed else runArbiter freed
      let r := u.key k
      let after : State :=
        if r.relWait then
          { u with
            keys := u.keys.set k { r with
              phase := .releasing, relWait := false, pulseEnd := none, holdLimit := none
              returnTimer := some (u.returnTimerFor k) }
            link := { u.link with sentDrive := u.link.sentDrive ++ (driveCmd (u.keyWire k) .off).toList } }
        else
          { u with
            keys := u.keys.set k { r with phase := .held, holdLimit := some (u.expiry u.holdLimitTime) }
            link := { u.link with
              sentDrive := u.link.sentDrive ++ (driveCmd (u.keyWire k) (.hold (u.holdDuty k))).toList } }
      exec (.pulseEnd k) s = .next ((settle after).ended s.mgmt.flags) ∧
        (s.sched.deferral = [] → u = freed)) ∧
    (((s.key k).phase ≠ .striking ∨ (s.key k).pulseEnd = none ∨
        ∃ t, (s.key k).pulseEnd = some t ∧ s.clock.actionTime < t) →
      exec (.pulseEnd k) s = .next s)

/-- HOLD_LIMIT lets a HELD key go and sets HOLD_EXPIRED (R126); a key let go gets TIMEOUT after ReturnTimeout with a
sensor and FIXED after ReturnTime without one (R127); RETURN_TIMER brings a RELEASING key to rest, and a TIMEOUT counts
a missed rest and sets the fault flag and SENSOR_FAULT (R129). That HOLD_LIMIT and RETURN_TIMER do nothing in any other
case is the model's choice (log 2). -/
def Obligations.KeyTimersRunOut : Prop :=
  ∀ (k : Key) (s : State), s.settled →
    let r := s.key k
    (∀ p, s.port.profile = some p → s.returnTimerFor k =
      if p.keys[k].sensor then (min 281474976710655 (s.clock.actionTime + p.returnTimeout * 1000), .timeout)
      else (min 281474976710655 (s.clock.actionTime + p.returnTime * 1000), .fixed)) ∧
    (∀ t, r.phase = .held → r.holdLimit = some t → t ≤ s.clock.actionTime →
      exec (.holdLimit k) s = .next ((raise .holdExpired { s with
        keys := s.keys.set k { r with
          phase := .releasing, relWait := false, pulseEnd := none, holdLimit := none
          returnTimer := some (s.returnTimerFor k) }
        link := { s.link with
          sentDrive := s.link.sentDrive ++ (driveCmd (s.keyWire k) .off).toList } }).ended s.mgmt.flags)) ∧
    (∀ t, r.phase = .releasing → r.returnTimer = some (t, .timeout) → t ≤ s.clock.actionTime →
      exec (.returnTimer k) s = .next ((settle (keyRests k (raise .sensorFault { s with
        keys := s.keys.set k { r with
          missedRest := min 255 (r.missedRest + 1), faultFlag := true } }))).ended s.mgmt.flags)) ∧
    (∀ t, r.phase = .releasing → r.returnTimer = some (t, .fixed) → t ≤ s.clock.actionTime →
      exec (.returnTimer k) s = .next ((settle (keyRests k s)).ended s.mgmt.flags)) ∧
    ((r.phase ≠ .held ∨ r.holdLimit = none ∨ ∃ t, r.holdLimit = some t ∧ s.clock.actionTime < t) →
      exec (.holdLimit k) s = .next s) ∧
    ((r.phase ≠ .releasing ∨ r.returnTimer = none ∨ ∃ t x, r.returnTimer = some (t, x) ∧ s.clock.actionTime < t) →
      exec (.returnTimer k) s = .next s)

/-- A key comes to rest (R130): RESTING with no timer; its rest notice counts a missed strike of a pulsed roll
articulation or clears the missed run (R156), and ends the busy probe it belongs to; outside PAUSED a pending strike is
offered, and dropped if late. A REST report ends a return, and else only sets the observed state (R128, R162). -/
def Obligations.KeysComeToRest : Prop :=
  ∀ (k : Key) (s : State),
    let r := s.key k
    let base : KeyRec := { r with
      phase := .resting, relWait := false, pulseEnd := none, holdLimit := none, returnTimer := none
      observed := if r.pulseSent then .up else r.observed
      snapshot := if r.pulseSent then .up else r.observed, pulseSent := false, expLead := none }
    let keyed (q : KeyRec) : State := { s with keys := s.keys.set k q }
    let pulsed : Prop := (∃ n, r.current = some ⟨.roll, n⟩) ∧ r.pulseSent = true
    let run := min 3 (r.missedRun + 1)
    let rested := restNotice k s
    (pulsed → r.strikeSeen = false → r.cutShort = false →
      rested = raiseIf (run == 3) .sensorFault (count .missedStrikes (keyed { base with
        missedRun := run
        adapt := if run = 3 then .frozen else r.adapt
        faultFlag := r.faultFlag || run == 3 }))) ∧
    (pulsed → r.strikeSeen = true → rested = keyed { base with missedRun := 0 }) ∧
    (pulsed → r.strikeSeen = false → r.cutShort = true → rested = keyed base) ∧
    (¬pulsed → s.isBusyProbe r.current = false → rested = keyed base) ∧
    (s.isBusyProbe r.current = true →
      rested = raise .probeDone { keyed base with calib := { s.calib with probe := s.calib.probe.map fun p =>
        { p with busy := false, result := some .none, endCause := some .rest } } }) ∧
    (r.pending = none ∨ s.perf.state = .paused → keyRests k s = rested) ∧
    (∀ st, r.pending = some st → s.perf.state ≠ .paused →
      let t : State := { rested with keys := rested.keys.set k { rested.key k with pending := none } }
      keyRests k s =
        if s.lateLimit < s.playTime - st.fire then endProbe (some st.tag) .late (raise .lateDrop (count .lateDrops t))
        else strikeReaches k st t) ∧
    ∀ board channel, s.reportKey board channel = some k →
      let up := keyed { r with observed := .up }
      exec (.restReport board channel) s = .next
        ((settle (if r.phase = .releasing then keyRests k up else if r.phase = .offline then s else up)).ended
          s.mgmt.flags)

/-- A STRIKE report (R154, R155, R162): the observed state changes; a measurement sets strike-seen and either moves the
correction by the error's floored step, within 4,000 either way, or counts an outlier, the third in a row freezing the
key; it ends the busy probe it belongs to (R160). A cut-short articulation is only seen, and so is that of a probe which
has ended (R160); any other report measures nothing. That an absent expected lead counts as 0 (log 7), and that the
report of a probe which has ended sets strike-seen (log 13), is the model's choice. -/
def Obligations.StrikeReportsAreClassified : Prop :=
  ∀ (board : BitVec 4) (channel : Byte) (measured : BitVec 16) (k : Key) (s : State),
    s.reportKey board channel = some k →
    let r := s.key k
    let seen : KeyRec := { r with
      observed := if (r.phase = .resting ∧ s.hasSensor k = false) ∨ r.phase = .offline then r.observed else .down }
    let keyed (q : KeyRec) : State := { s with keys := s.keys.set k q }
    let e : Int := (measured.toNat : Int) - (r.expLead.getD 0 : Nat)
    let limit := s.calib.adaptParam[0]
    let run := min 3 (r.outlierRun + 1)
    let inAir : Prop := (r.phase = .striking ∨ r.phase = .held ∨ r.phase = .releasing) ∧ r.pulseSent = true
    let ended : Prop := (∃ n, r.current = some ⟨.probe, n⟩) ∧ s.isBusyProbe r.current = false
    let corrected : Int := if s.calib.globalAdapt = true ∧ r.adapt = .active then
      max (-4000) (min 4000 (r.correction + Int.fdiv e (2 ^ s.calib.adaptParam[1] : Nat))) else r.correction
    let probed (c : Int) (t : State) : State :=
      if s.isBusyProbe r.current then
        raise .probeDone { t with calib := { t.calib with probe := t.calib.probe.map fun p =>
          { p with busy := false, result := some (.measured measured.toNat), endCause := some .report
                   error := some e, corrAfter := some c } } }
      else t
    (s.hasSensor k = true ↔ ∃ p, s.port.profile = some p ∧ p.keys[k].sensor = true) ∧
    let taken (t : State) : Prop := exec (.strikeReport board channel measured) s =
      .next ((settle t).ended s.mgmt.flags)
    (inAir → r.strikeSeen = false → r.cutShort = false → ¬ended → e.natAbs ≤ limit →
      taken (probed corrected (keyed { seen with strikeSeen := true, outlierRun := 0, correction := corrected }))) ∧
    (inAir → r.strikeSeen = false → r.cutShort = false → ¬ended → limit < e.natAbs →
      taken (probed r.correction (raiseIf (run == 3) .sensorFault (count .outliers (keyed { seen with
        strikeSeen := true, outlierRun := run
        adapt := if run = 3 then .frozen else r.adapt
        faultFlag := r.faultFlag || run == 3 }))))) ∧
    (inAir → r.strikeSeen = false → r.cutShort = true ∨ ended → taken (keyed { seen with strikeSeen := true })) ∧
    (¬inAir ∨ r.strikeSeen = true → taken (keyed seen))

/-! ### Boards -/

/-- A report is routed only from a present board in service, on a channel that carries a key (R143, R144); a discarded
frame is counted and does nothing else; a FAULT report sets BOARD_FAULT and disables its board with reason FAULT and the
report's reason, or renews the reason of one that is disabled (R145). The disable (R146) sends OFF to the driven
targets, takes the keys OFFLINE with their strikes counted as discarded, ends a probe whose strike is removed, lifts the
pedals, frees the slots and runs the arbiter outside PAUSED. The order of the OFFs is the model's choice (log 5). -/
def Obligations.BoardFramesAreRoutedOrStray : Prop :=
  ∀ (board : BitVec 4) (channel : Byte) (measured : BitVec 16) (reason : FaultReason) (s : State),
    let routed (b : Board) (k : Key) : Prop :=
      b.val = board.toNat ∧ (s.board b).present = true ∧ (s.board b).service = .enabled ∧ channel.toNat ≤ 23 ∧
        s.keyWire k = some (b, channel.toNat)
    let stray := count .strayReports s
    (∀ k, s.reportKey board channel = some k → ∃ b, routed b k) ∧
    (s.reportKey board channel = none → ∀ b k, ¬routed b k) ∧
    (s.settled → s.reportKey board channel = none →
      exec (.strikeReport board channel measured) s = .next stray ∧ exec (.restReport board channel) s = .next stray) ∧
    (s.settled → exec .strayReport s = .next stray) ∧
    (s.settled → (s.port.profile = none ∨ ∀ b : Board, b.val = board.toNat → (s.board b).present = false) →
      exec (.faultReport board reason) s = .next stray) ∧
    ∀ b : Board, s.port.profile ≠ none → b.val = board.toNat → (s.board b).present = true →
      ((s.board b).service = .enabled →
        let off (r : KeyRec) : KeyRec := { r with
          phase := .offline, pending := none, pulseEnd := none, holdLimit := none, returnTimer := none, relWait := false
          pulseSent := false, expLead := none, observed := .up, snapshot := .up }
        let leaves (k : Key) : Bool := s.keyOnBoard k b && (s.key k).phase != .offline
        let removes (tag : Tag) : Prop := ∃ k, leaves k = true ∧
          (((s.key k).phase ≠ .resting ∧ (s.key k).current = some tag) ∨ (∃ st, (s.key k).pending = some st ∧ st.tag = tag) ∨
            ∃ e ∈ s.sched.deferral, e.key = k ∧ e.strike.tag = tag)
        let probeGoes : Prop := ∃ p, s.calib.probe = some p ∧ p.busy = true ∧ removes ⟨.probe, p.serial⟩
        let discards := (s.sched.deferral.filter fun e => leaves e.key).length +
          ((List.ofFn fun k : Key => k).filter fun k => leaves k && (s.key k).pending.isSome).length
        let lifted (p : Pedal) : PedalRec :=
          if s.pedalOnBoard p b then { s.pedal p with phase := .up, relWait := false, engageEnd := none } else s.pedal p
        let offs := offKeys (fun k r => s.keyOnBoard k b && (r.phase = .striking || r.phase = .held)) s ++
          offPedals (fun p r => s.pedalOnBoard p b && (r.phase = .engaging || r.phase = .down)) s
        let out (begun : State) : State := { countBy discards .offlineDiscards begun with
          sched := { s.sched with
            deferral := s.sched.deferral.filter fun e => !leaves e.key
            total := s.sched.total - (s.board b).inFlight }
          keys := Vector.ofFn fun k => if leaves k then off (s.key k) else s.key k
          pedals := { sustain := lifted .sustain, soft := lifted .soft }
          port := { s.port with boards := s.port.boards.set b { s.board b with
            service := .disabled .fault, faultReason := some reason, inFlight := 0 } }
          link := { s.link with sentDrive := s.link.sentDrive ++ offs } }
        let takes (begun : State) : Prop := exec (.faultReport board reason) s = .next
          ((settle (raise .boardFault
            (if s.perf.state = .paused then out begun else runArbiter (out begun)))).ended s.mgmt.flags)
        (probeGoes → takes (raise .probeDone { s with calib := { s.calib with probe := s.calib.probe.map fun p =>
          { p with busy := false, result := some .none, endCause := some .disable } } })) ∧
        (¬probeGoes → takes s)) ∧
      ((s.board b).service ≠ .enabled → s.settled →
        exec (.faultReport board reason) s = .next ((raise .boardFault { s with port := { s.port with
          boards := s.port.boards.set b { s.board b with
            service := .disabled .fault, faultReason := some reason } } }).ended s.mgmt.flags))

/-- BOARD requests by the answers of R147; the disable (R146) sends OFF to the driven targets, takes the keys OFFLINE
with their strikes counted as discarded, ends a probe whose strike is removed, lifts the pedals and frees the slots; the
enable (R148) brings keys to RESTING and drives the pedals that are commanded down. The order of the OFFs and that of
the PULSEs is the model's choice (log 5). -/
def Obligations.BoardRequestsDisableAndEnable : Prop :=
  ∀ (id n : Byte) (s : State), s.ready → s.settled →
    let refused (r : Result) : State := s.nowDue [.response id r []]
    (4 ≤ n.toNat → exec (.boardEnable id (.good n)) s = .next (refused .invalid) ∧
      exec (.boardDisable id (.good n)) s = .next (refused .invalid)) ∧
    (n.toNat < 4 → s.port.profile = none → exec (.boardEnable id (.good n)) s = .next (refused .notReady) ∧
      exec (.boardDisable id (.good n)) s = .next (refused .notReady)) ∧
    ∀ b : Board, b.val = n.toNat → s.port.profile ≠ none →
      let service := (s.board b).service
      let on : State := { s with
        port := { s.port with boards := s.port.boards.set b { s.board b with service := .enabled, faultReason := none } }
        keys := Vector.ofFn fun k =>
          if s.keyOnBoard k b = true ∧ (s.key k).phase = .offline then { s.key k with phase := .resting } else s.key k }
      let follows (p : Pedal) : PedalRec × Option DriveAction :=
        if s.pedalOnBoard p b then on.pedalTakes p (s.pedal p) else (s.pedal p, none)
      let sends := allPedals.filterMap fun p => (follows p).2.bind fun a => driveCmd (s.pedalWire p) a
      let enabled : State := { on with
        pedals := { sustain := (follows .sustain).1, soft := (follows .soft).1 }
        link := { s.link with sentDrive := s.link.sentDrive ++ sends } }
      let off (r : KeyRec) : KeyRec := { r with
        phase := .offline, pending := none, pulseEnd := none, holdLimit := none, returnTimer := none, relWait := false
        pulseSent := false, expLead := none, observed := .up, snapshot := .up }
      let leaves (k : Key) : Bool := s.keyOnBoard k b && (s.key k).phase != .offline
      let removes (tag : Tag) : Prop := ∃ k, leaves k = true ∧
        (((s.key k).phase ≠ .resting ∧ (s.key k).current = some tag) ∨ (∃ st, (s.key k).pending = some st ∧ st.tag = tag) ∨
          ∃ e ∈ s.sched.deferral, e.key = k ∧ e.strike.tag = tag)
      let probeGoes : Prop := ∃ p, s.calib.probe = some p ∧ p.busy = true ∧ removes ⟨.probe, p.serial⟩
      let discards := (s.sched.deferral.filter fun e => leaves e.key).length +
        ((List.ofFn fun k : Key => k).filter fun k => leaves k && (s.key k).pending.isSome).length
      let lifted (p : Pedal) : PedalRec :=
        if s.pedalOnBoard p b then { s.pedal p with phase := .up, relWait := false, engageEnd := none } else s.pedal p
      let offs := offKeys (fun k r => s.keyOnBoard k b && (r.phase = .striking || r.phase = .held)) s ++
        offPedals (fun p r => s.pedalOnBoard p b && (r.phase = .engaging || r.phase = .down)) s
      let out (begun : State) : State := { countBy discards .offlineDiscards begun with
        sched := { s.sched with
          deferral := s.sched.deferral.filter fun e => !leaves e.key
          total := s.sched.total - (s.board b).inFlight }
        keys := Vector.ofFn fun k => if leaves k then off (s.key k) else s.key k
        pedals := { sustain := lifted .sustain, soft := lifted .soft }
        port := { s.port with boards := s.port.boards.set b { s.board b with
          service := .disabled .request, faultReason := none, inFlight := 0 } }
        link := { s.link with sentDrive := s.link.sentDrive ++ offs } }
      exec (.boardEnable id (.good n)) s = .next
        (if service = .disabled .absent then refused .invalid
        else if s.perf.state = .playing then refused .busy
        else if service = .enabled then refused .ok
        else (settle enabled).replied s.mgmt.flags id .ok) ∧
      let disables (begun : State) : Prop := exec (.boardDisable id (.good n)) s = .next
        ((settle (if s.perf.state = .paused then out begun else runArbiter (out begun))).replied s.mgmt.flags id .ok)
      (service = .enabled → probeGoes → disables (raise .probeDone { s with calib := { s.calib with
        probe := s.calib.probe.map fun p =>
          { p with busy := false, result := some .none, endCause := some .disable } } })) ∧
      (service = .enabled → ¬probeGoes → disables s) ∧
      (service ≠ .enabled → exec (.boardDisable id (.good n)) s = .next (refused .ok))

/-! ### Calibration, probes and reads -/

/-- ADAPT (R157): ON and OFF set global adapt; THAW makes a key ACTIVE and clears its runs and fault flag; RESET does so
and zeroes its correction; RESET ALL does so for every key; a key outside 1 to 88 is INVALID. -/
def Obligations.AdaptRequestsResetAndThaw : Prop :=
  ∀ (id n : Byte) (s : State), s.ready → s.settled →
    let ok (t : State) : State := t.nowDue [.response id .ok []]
    let thawed (r : KeyRec) : KeyRec := { r with adapt := .active, outlierRun := 0, missedRun := 0, faultFlag := false }
    let withKeys (v : Vector KeyRec 88) : State := { s with keys := v }
    exec (.adaptOn id (.good ())) s = .next (ok { s with calib := { s.calib with globalAdapt := true } }) ∧
    exec (.adaptOff id (.good ())) s = .next (ok { s with calib := { s.calib with globalAdapt := false } }) ∧
    exec (.adaptResetAll id (.good ())) s = .next (ok (withKeys
      (Vector.ofFn fun k => { thawed (s.key k) with correction := 0 }))) ∧
    (∀ k : Key, n.toNat = k.val + 1 →
      exec (.adaptReset id (.good n)) s = .next (ok (withKeys
        (s.keys.set k { thawed (s.key k) with correction := 0 }))) ∧
      exec (.adaptThaw id (.good n)) s = .next (ok (withKeys (s.keys.set k (thawed (s.key k)))))) ∧
    (n.toNat = 0 ∨ 88 < n.toNat →
      exec (.adaptReset id (.good n)) s = .next (s.nowDue [.response id .invalid []]) ∧
      exec (.adaptThaw id (.good n)) s = .next (s.nowDue [.response id .invalid []]))

/-- PROBE (R159) by its answers in order, and FULL (R103); one that is taken gets the next serial, fills the probe
record, inserts its RELEASE and hands its strike to the key. That its release time is held at the largest play time is
the model's choice (log 3). -/
def Obligations.ProbeBeginsItsStrike : Prop :=
  ∀ (id : Byte) (r : RawProbe) (s : State), s.ready → s.settled →
    let refused (x : Result) : State := s.nowDue [.response id x []]
    (r.key.toNat = 0 ∨ 88 < r.key.toNat → exec (.probe id (.good r)) s = .next (refused .invalid)) ∧
    ∀ k : Key, r.key.toNat = k.val + 1 →
      let i := max 1 (min 1000 r.intensity.toNat)
      let h := min 2000 r.hold.toNat
      let serial := if s.calib.serial = 65535 then 1 else s.calib.serial + 1
      let v := s.strikeVals k i
      let tag : Tag := ⟨.probe, serial⟩
      let release := min maxTime (s.playTime + v.width + h * 1000)
      let noted : State := { s with calib := { s.calib with
        serial := serial
        probe := some
          { busy := true, serial := serial, key := k, intensity := i, hold := h, width := v.width
            leadEff := v.leadEff, cUsed := (s.key k).correction, fire := s.playTime, release := release
            result := none, endCause := none, error := none, corrAfter := none } } }
      exec (.probe id (.good r)) s = .next
        (if s.port.profile = none then refused .notReady
        else if s.perf.state ≠ .stopped then refused .busy
        else if s.probeBusy = true then refused .busy
        else if 256 ≤ s.sched.queue.length + s.sched.owed then refused .full
        else (settle (strikeReaches k ⟨tag, v, s.playTime, false⟩ (enqueue ⟨.release k, tag, release⟩ noted))).replied
          s.mgmt.flags id (if i = r.intensity.toNat ∧ h = r.hold.toNat then .ok else .clamped))

/-- The READ requests (R170, R171): each is answered with its object's data and changes nothing, but that READ KEYS
copies every observed state into its snapshot (R163) and READ COUNTERS clears every counter if asked, after reporting
them in the order of R175, each of which stops at 65,535; a key outside 1 to 88, and a table range that names no entry,
are INVALID. The data of every object are given field by field, in the order of their rules and the codes of R182, and
the entries of the eight tables of READ TABLE in their LOAD encoding (R181). The codes that R182 does not give by name,
the presence bytes of READ STATUS, KEY, PEDALS, BOARDS and LOOP and the absence of a pedal mapped to NONE (log 8), the
bytes of READ PROBE without a probe and its optional fields (log 9) and those of an error beyond its field (log 14) are
the model's choice. -/
def Obligations.ReadsAnswerTheirData : Prop :=
  (∀ (id n : Byte) (clear : Bool) (q : QueueAt) (t : TableAt) (s : State), s.ready → s.settled →
    let b1 (n : Nat) : List Byte := [BitVec.ofNat 8 n]
    let b2 (n : Nat) : List Byte := b1 (n / 256) ++ b1 n
    let answers (c : Instr) (data : List Byte) : Prop := exec c s = .next (s.nowDue [.response id .ok data])
    let refuses (c : Instr) : Prop := exec c s = .next (s.nowDue [.response id .invalid []])
    answers (.readStatus id (.good ())) (statusData s) ∧
    (∀ k : Key, n.toNat = k.val + 1 → answers (.readKey id (.good n)) (keyData s k)) ∧
    (n.toNat = 0 ∨ 88 < n.toNat → refuses (.readKey id (.good n))) ∧
    exec (.readKeys id (.good ())) s = .next (State.nowDue
      { s with keys := Vector.ofFn fun k => { s.key k with snapshot := (s.key k).observed } }
      [.response id .ok ((List.ofFn fun k : Key => if (s.key k).observed = .up then 0#8 else 1#8))]) ∧
    answers (.readRegulators id (.good ())) (regulatorsData s) ∧ answers (.readPedals id (.good ())) (pedalsData s) ∧
    answers (.readBoards id (.good ())) (boardsData s) ∧ answers (.readLoop id (.good ())) (loopData s) ∧
    answers (.readQueue id (.good q)) (queueData s q) ∧ answers (.readProbe id (.good ())) (probeData s) ∧
    exec (.readCounters id (.good clear)) s = .next (State.nowDue
      (if clear then { s with mgmt := { s.mgmt with counters := Vector.replicate 14 0 } } else s)
      [.response id .ok
        (([.crcErrors, .lengthKindErrors, .staleLines, .gapEvents, .idleLines, .pausedLines, .afterEndLines, .queueRefusals,
          .lateDrops, .supersededStrikes, .offlineDiscards, .outliers, .missedStrikes, .strayReports] :
          List Counter).flatMap fun c => b2 (s.counter c))]) ∧
    (∀ (c : Counter) (by' : Nat),
      let t := countBy by' c s
      (∀ d, t.counter d = if d = c then min 65535 (s.counter d + by') else s.counter d) ∧
        { t with mgmt := { t.mgmt with counters := s.mgmt.counters } } = s ∧ count c s = countBy 1 c s) ∧
    (∀ size entries, tableEntries s t.table.toNat = some (size, entries) → t.first.toNat < entries.length →
      t.count ≠ 0 →
      let out := (entries.drop t.first.toNat).take (min t.count.toNat (1018 / size))
      answers (.readTable id (.good t)) (b1 t.table.toNat ++ b2 t.first.toNat ++ b1 out.length ++ out.flatten)) ∧
    ((t.table.toNat = 0 ∨ 8 < t.table.toNat) → refuses (.readTable id (.good t))) ∧
    ∀ size entries, tableEntries s t.table.toNat = some (size, entries) → entries.length ≤ t.first.toNat →
      refuses (.readTable id (.good t))) ∧
  ∀ s : State,
    let b1 (n : Nat) : List Byte := [BitVec.ofNat 8 n]
    let b2 (n : Nat) : List Byte := b1 (n / 256) ++ b1 n
    let b3 (n : Nat) : List Byte := b1 (n / 65536) ++ b2 n
    let b4 (n : Nat) : List Byte := b1 (n / 16777216) ++ b3 n
    let b6 (n : Nat) : List Byte := b1 (n / 1099511627776) ++ b1 (n / 4294967296) ++ b4 n
    let signed (i : Int) : List Byte := b2 (i % 65536).toNat
    let bit (b : Bool) : List Byte := b1 (if b then 1 else 0)
    let opt (size : Nat) (x : Option (List Byte)) : List Byte := match x with
      | some bytes => 1 :: bytes
      | none => 0 :: List.replicate size 0
    let tag (t : Tag) : List Byte := b1 (match t.origin with | .roll => 0 | .probe => 1) ++ b3 t.number
    let vals (v : StrikeVals) : List Byte := b2 v.intensity ++ b2 v.width ++ b2 v.leadEff ++ signed v.cUsed
    let base (b : Base) : List Byte := b1 (match b with | .free => 0 | .line => 1)
    let service (x : Service) : List Byte := b1 (match x with
      | .enabled => 0 | .disabled .noProfile => 1 | .disabled .absent => 2 | .disabled .request => 3
      | .disabled .fault => 4)
    let position (p : Position) : List Byte := b1 (match p with | .up => 0 | .down => 1)
    let rate (r : Regulator) : List Byte :=
      b1 (match r.rate with | .base => 0 | .slow => 1 | .fast => 2) ++ b2 r.rateValue
    let half (h : Half) (r : Regulator) : List Byte :=
      b2 r.level ++ b2 r.target ++ b2 r.code ++ rate r ++ bit r.accent ++ b2 (s.effectiveLevel h)
    let entry (e : DeferralEntry) : List Byte :=
      b1 (e.key.val + 1) ++ tag e.strike.tag ++ vals e.strike.vals ++ b6 e.strike.fire ++ bit e.strike.relWait
    let fire (r : FireRecord) : List Byte := match r.kind with
      | .strike k v => b1 0 ++ b1 (k.val + 1) ++ tag r.tag ++ b6 r.fire ++ vals v
      | .release k => b1 1 ++ b1 (k.val + 1) ++ tag r.tag ++ b6 r.fire ++ List.replicate 8 0
      | .pedalDown p => b1 2 ++ b1 (match p with | .sustain => 89 | .soft => 90) ++ tag r.tag ++ b6 r.fire ++
          List.replicate 8 0
      | .pedalUp p => b1 3 ++ b1 (match p with | .sustain => 89 | .soft => 90) ++ tag r.tag ++ b6 r.fire ++
          List.replicate 8 0
    let route (e : RouteEntry) : List Byte := (match e.function with
      | .unused => b1 0 ++ b1 0
      | .note k => b1 1 ++ b1 (k.val + 1)
      | .pedal p => b1 2 ++ b1 (match p with | .sustain => 0 | .soft => 1)
      | .expr h b => b1 3 ++ b1 (16 * (match h with | .bass => 0 | .treble => 1) +
          (match b with | .int1 => 0 | .int2 => 1 | .int4 => 2 | .slow => 3 | .fast => 4 | .accent => 5))
      | .endMark => b1 4 ++ b1 0
      | .cue => b1 5 ++ b1 0) ++ bit e.mask
    let point (p : CalPoint) : List Byte := b2 p.intensity ++ b2 p.width ++ b2 p.lead
    let record (r : CalRec) : List Byte := point r.p0 ++ point r.p1 ++ point r.p2 ++ point r.p3 ++ b2 r.rl
    let l := s.clock.loop
    (tableEntries s 1 = some (3, s.reader.route.toList.map route) ∧
      tableEntries s 2 = some (1, s.reader.detect.toList.map b1) ∧
      tableEntries s 3 = some (2, s.expr.shading.toList.map b2) ∧
      tableEntries s 4 = some (2, s.expr.curve.toList.map b2) ∧
      tableEntries s 5 = some (2, s.expr.voicing.toList.map signed) ∧
      tableEntries s 6 = some (26, s.strike.calib.toList.map record) ∧
      tableEntries s 7 = some (4, s.clock.timing.toList.map b4) ∧
      tableEntries s 8 = some (2, s.calib.adaptParam.toList.map b2)) ∧
    (statusData s =
      b1 (match s.perf.state with | .stopped => 0 | .armed => 1 | .playing => 2 | .paused => 3 | .draining => 4) ++
      b1 (match s.perf.stopReason with | .none => 0 | .request => 1 | .ended => 2 | .lost => 3 | .reset => 4) ++
      b2 s.perf.cues.length ++ opt 3 (s.perf.cues.head?.map b3) ++ opt 6 (s.perf.pausePoint.map b6) ++
      b6 (s.clock.actionTime - s.clock.pausedTotal) ++ b6 s.clock.actionTime ++ base s.clock.base ++
      bit s.clock.switch.isSome ++ bit l.locked ++
      opt 9 (s.intake.history.getLast?.map fun x => b3 x.line ++ b6 x.time) ++ signed s.reader.shift ++
      b2 s.reader.rollMarks ++ b1 (if s.calib.globalAdapt then 0 else 1) ++ bit (s.calib.probe.any (·.busy)) ++
      service (s.board 0).service ++ service (s.board 1).service ++ service (s.board 2).service ++
      service (s.board 3).service ++ bit s.port.profile.isSome ++ b2 s.mgmt.flags.toNat ++ b2 s.mgmt.enables.toNat) ∧
    (∀ k : Key,
      let r := s.key k
      keyData s k =
        b1 (match r.phase with
          | .resting => 0 | .deferred => 1 | .striking => 2 | .held => 3 | .releasing => 4 | .offline => 5) ++
        opt 4 (r.current.map tag) ++ bit r.pulseSent ++ bit r.relWait ++ opt 2 (r.expLead.map b2) ++
        opt 19 (r.pending.map fun x => tag x.tag ++ vals x.vals ++ b6 x.fire ++ bit x.relWait) ++
        opt 4 (r.owed.map tag) ++ opt 4 (r.refused.map tag) ++ opt 6 (r.pulseEnd.map b6) ++
        opt 6 (r.holdLimit.map b6) ++
        opt 7 (r.returnTimer.map fun x => b6 x.1 ++ b1 (match x.2 with | .timeout => 0 | .fixed => 1)) ++
        b2 r.missedRest ++ bit r.faultFlag ++ signed r.correction ++
        b1 (match r.adapt with | .active => 0 | .frozen => 1) ++ b2 r.outlierRun ++ b2 r.missedRun ++
        bit r.strikeSeen ++ bit r.cutShort ++ position r.observed ++ position r.snapshot ++
        opt 16 (s.strike.lastNotes[k].map fun x =>
          tag x.tag ++ b2 x.intensity ++ b2 x.width ++ b2 x.leadEff ++ b6 x.fire)) ∧
    (loopData s = base s.clock.base ++ opt 1 (s.clock.switch.map base) ++
      b1 (match l.mode with | .off => 0 | .acquiring => 1 | .tracking => 2) ++ bit l.locked ++ b4 l.pEst ++
      b6 l.tLoop ++ b2 l.goodRun ++ b2 l.badRun ++ b6 (l.lastError % 281474976710656).toNat) ∧
    (regulatorsData s = half .bass s.expr.bass ++ half .treble s.expr.treble ++ bit s.softApplies) ∧
    (∀ q : QueueAt,
      let entries := (s.sched.deferral.drop q.deferral.toNat).take 50
      let records := (s.sched.queue.drop q.fire.toNat).take (50 - entries.length)
      queueData s q = b2 s.sched.queue.length ++ b1 s.sched.owed ++ b1 s.sched.total ++ b1 s.totalLimit ++
        b1 s.sched.deferral.length ++ b1 entries.length ++ b1 records.length ++ entries.flatMap entry ++
        records.flatMap fire) ∧
    (pedalsData s = ([Pedal.sustain, Pedal.soft].flatMap fun p =>
      let r := s.pedal p
      bit r.roll ++ opt 4 (r.rollTag.map tag) ++ bit r.manual ++ bit r.inhibit ++
        opt 4 (if r.memSet = true then some ((r.memTag.map tag).getD (List.replicate 4 0)) else none) ++
        b1 (match r.phase with | .up => 0 | .engaging => 1 | .down => 2) ++ bit r.relWait ++
        opt 6 (r.engageEnd.map b6) ++ opt 10 (r.lastDown.map fun x => tag x.tag ++ b6 x.fire) ++
        opt 4 (r.owed.map tag) ++ opt 4 (r.refused.map tag) ++ bit (s.commandedDown p) ++
        opt 4 ((s.pedalWire p).map fun w => b2 w.1.val ++ b2 w.2))) ∧
    (boardsData s = ((List.ofFn fun b : Board => s.board b).flatMap fun r =>
        bit r.present ++ service r.service ++
          opt 1 (r.faultReason.map fun x => b1 (match x with | .overcurrent => 0 | .thermal => 1 | .supply => 2)) ++
          b2 r.inFlight ++ opt 2 (r.params.map fun x => b2 x.mB) ++ opt 2 (r.params.map fun x => b2 x.holdDuty) ++
          opt 2 (r.params.map fun x => b2 x.engageWidth) ++ opt 2 (r.params.map fun x => b2 x.pedalHoldDuty)) ++
      opt 546 (s.port.profile.map fun p =>
        b2 p.mTot ++ b2 p.holdLimit ++ b2 p.returnTimeout ++ b2 p.returnTime ++
          ((List.ofFn fun k : Key => p.keys[k]).flatMap fun x =>
            opt 2 (x.board.map fun b => b2 b.val) ++ b2 x.channel ++ bit x.sensor) ++
          ([p.sustain, p.soft].flatMap fun x => opt 2 (x.board.map fun b => b2 b.val) ++ b2 x.channel))) ∧
    (s.calib.probe = none → probeData s = List.replicate 39 0) ∧
    ∀ p, s.calib.probe = some p → probeData s =
      bit p.busy ++ b2 p.serial ++ b2 (p.key.val + 1) ++ b2 p.intensity ++ b2 p.hold ++ b2 p.width ++ b2 p.leadEff ++
        signed p.cUsed ++ b6 p.fire ++ b6 p.release ++
        opt 3 (p.result.map fun x => match x with
          | .measured m => b1 0 ++ b2 m
          | .none => b1 1 ++ b2 0) ++
        opt 1 (p.endCause.map fun x => b1 (match x with
          | .report => 0 | .rest => 1 | .offline => 2 | .late => 3 | .disable => 4 | .abandoned => 5)) ++
        opt 2 (p.error.map signed) ++ opt 2 (p.corrAfter.map signed)

/-! ### What every step keeps -/

/-- Every step keeps flags, counters and due frames sound: what is settled stays settled, and no more than four
responses and one notice are ever due. -/
def Obligations.EveryStepKeepsManagementSound : Prop :=
  ∀ s t : State, s.managementSound → step s = .next t → t.managementSound

/-- Every step keeps Performance Control, the clocks and the lock loop sound, and outside STOPPED the functions in force
those of the Route Table. -/
def Obligations.EveryStepKeepsPerformanceSound : Prop :=
  ∀ s t : State, s.performanceSound → step s = .next t → t.performanceSound

/-- Every step keeps the Fire Queue in order and, with the owed releases, within its 256 places. -/
def Obligations.EveryStepKeepsTheQueueSound : Prop :=
  ∀ s t : State, s.queueSound → step s = .next t → t.queueSound

/-- Every step keeps the keys in agreement with the Deferral List, the slots and the boards, and the pedals with their
commanded states. -/
def Obligations.EveryStepKeepsKeysAndPedalsInAgreement : Prop :=
  ∀ s t : State, step s = .next t → (s.keysAgree → t.keysAgree) ∧ (s.pedalsAgree → t.pedalsAgree)

/-- What every step keeps holds after reset. -/
def Obligations.WhatStepsKeepHoldsAtReset : Prop :=
  State.reset.managementSound ∧ State.reset.performanceSound ∧ State.reset.queueSound ∧ State.reset.keysAgree ∧
    State.reset.pedalsAgree
end

