-- ==== Sys2Proof/Laws/State.lean ====
section
/-!
SUPPORT. What the small named updates leave alone, field by field, and what they write: true by unfolding once, so that
no later proof unfolds a record update.
-/
namespace Sys2Proof.Machine

/-! ### raise -/

@[simp] theorem raise_perf (f : Flag) (s : State) : (raise f s).perf = s.perf := rfl
@[simp] theorem raise_clock (f : Flag) (s : State) : (raise f s).clock = s.clock := rfl
@[simp] theorem raise_intake (f : Flag) (s : State) : (raise f s).intake = s.intake := rfl
@[simp] theorem raise_reader (f : Flag) (s : State) : (raise f s).reader = s.reader := rfl
@[simp] theorem raise_expr (f : Flag) (s : State) : (raise f s).expr = s.expr := rfl
@[simp] theorem raise_strike (f : Flag) (s : State) : (raise f s).strike = s.strike := rfl
@[simp] theorem raise_pedals (f : Flag) (s : State) : (raise f s).pedals = s.pedals := rfl
@[simp] theorem raise_sched (f : Flag) (s : State) : (raise f s).sched = s.sched := rfl
@[simp] theorem raise_keys (f : Flag) (s : State) : (raise f s).keys = s.keys := rfl
@[simp] theorem raise_port (f : Flag) (s : State) : (raise f s).port = s.port := rfl
@[simp] theorem raise_calib (f : Flag) (s : State) : (raise f s).calib = s.calib := rfl
@[simp] theorem raise_link (f : Flag) (s : State) : (raise f s).link = s.link := rfl
@[simp] theorem raise_pending (f : Flag) (s : State) : (raise f s).pending = s.pending := rfl

/-! ### raiseIf -/

@[simp] theorem raiseIf_perf (c : Bool) (f : Flag) (s : State) : (raiseIf c f s).perf = s.perf := by cases c <;> rfl
@[simp] theorem raiseIf_clock (c : Bool) (f : Flag) (s : State) : (raiseIf c f s).clock = s.clock := by cases c <;> rfl
@[simp] theorem raiseIf_intake (c : Bool) (f : Flag) (s : State) : (raiseIf c f s).intake = s.intake := by cases c <;> rfl
@[simp] theorem raiseIf_reader (c : Bool) (f : Flag) (s : State) : (raiseIf c f s).reader = s.reader := by cases c <;> rfl
@[simp] theorem raiseIf_expr (c : Bool) (f : Flag) (s : State) : (raiseIf c f s).expr = s.expr := by cases c <;> rfl
@[simp] theorem raiseIf_strike (c : Bool) (f : Flag) (s : State) : (raiseIf c f s).strike = s.strike := by cases c <;> rfl
@[simp] theorem raiseIf_pedals (c : Bool) (f : Flag) (s : State) : (raiseIf c f s).pedals = s.pedals := by cases c <;> rfl
@[simp] theorem raiseIf_sched (c : Bool) (f : Flag) (s : State) : (raiseIf c f s).sched = s.sched := by cases c <;> rfl
@[simp] theorem raiseIf_keys (c : Bool) (f : Flag) (s : State) : (raiseIf c f s).keys = s.keys := by cases c <;> rfl
@[simp] theorem raiseIf_port (c : Bool) (f : Flag) (s : State) : (raiseIf c f s).port = s.port := by cases c <;> rfl
@[simp] theorem raiseIf_calib (c : Bool) (f : Flag) (s : State) : (raiseIf c f s).calib = s.calib := by cases c <;> rfl
@[simp] theorem raiseIf_link (c : Bool) (f : Flag) (s : State) : (raiseIf c f s).link = s.link := by cases c <;> rfl
@[simp] theorem raiseIf_pending (c : Bool) (f : Flag) (s : State) : (raiseIf c f s).pending = s.pending := by cases c <;> rfl

/-! ### countBy -/

@[simp] theorem countBy_perf (n : Nat) (c : Counter) (s : State) : (countBy n c s).perf = s.perf := rfl
@[simp] theorem countBy_clock (n : Nat) (c : Counter) (s : State) : (countBy n c s).clock = s.clock := rfl
@[simp] theorem countBy_intake (n : Nat) (c : Counter) (s : State) : (countBy n c s).intake = s.intake := rfl
@[simp] theorem countBy_reader (n : Nat) (c : Counter) (s : State) : (countBy n c s).reader = s.reader := rfl
@[simp] theorem countBy_expr (n : Nat) (c : Counter) (s : State) : (countBy n c s).expr = s.expr := rfl
@[simp] theorem countBy_strike (n : Nat) (c : Counter) (s : State) : (countBy n c s).strike = s.strike := rfl
@[simp] theorem countBy_pedals (n : Nat) (c : Counter) (s : State) : (countBy n c s).pedals = s.pedals := rfl
@[simp] theorem countBy_sched (n : Nat) (c : Counter) (s : State) : (countBy n c s).sched = s.sched := rfl
@[simp] theorem countBy_keys (n : Nat) (c : Counter) (s : State) : (countBy n c s).keys = s.keys := rfl
@[simp] theorem countBy_port (n : Nat) (c : Counter) (s : State) : (countBy n c s).port = s.port := rfl
@[simp] theorem countBy_calib (n : Nat) (c : Counter) (s : State) : (countBy n c s).calib = s.calib := rfl
@[simp] theorem countBy_link (n : Nat) (c : Counter) (s : State) : (countBy n c s).link = s.link := rfl
@[simp] theorem countBy_pending (n : Nat) (c : Counter) (s : State) : (countBy n c s).pending = s.pending := rfl

/-! ### count -/

@[simp] theorem count_perf (c : Counter) (s : State) : (count c s).perf = s.perf := rfl
@[simp] theorem count_clock (c : Counter) (s : State) : (count c s).clock = s.clock := rfl
@[simp] theorem count_intake (c : Counter) (s : State) : (count c s).intake = s.intake := rfl
@[simp] theorem count_reader (c : Counter) (s : State) : (count c s).reader = s.reader := rfl
@[simp] theorem count_expr (c : Counter) (s : State) : (count c s).expr = s.expr := rfl
@[simp] theorem count_strike (c : Counter) (s : State) : (count c s).strike = s.strike := rfl
@[simp] theorem count_pedals (c : Counter) (s : State) : (count c s).pedals = s.pedals := rfl
@[simp] theorem count_sched (c : Counter) (s : State) : (count c s).sched = s.sched := rfl
@[simp] theorem count_keys (c : Counter) (s : State) : (count c s).keys = s.keys := rfl
@[simp] theorem count_port (c : Counter) (s : State) : (count c s).port = s.port := rfl
@[simp] theorem count_calib (c : Counter) (s : State) : (count c s).calib = s.calib := rfl
@[simp] theorem count_link (c : Counter) (s : State) : (count c s).link = s.link := rfl
@[simp] theorem count_pending (c : Counter) (s : State) : (count c s).pending = s.pending := rfl

/-! ### setKey -/

@[simp] theorem setKey_perf (k : Key) (r : KeyRec) (s : State) : (setKey k r s).perf = s.perf := rfl
@[simp] theorem setKey_clock (k : Key) (r : KeyRec) (s : State) : (setKey k r s).clock = s.clock := rfl
@[simp] theorem setKey_intake (k : Key) (r : KeyRec) (s : State) : (setKey k r s).intake = s.intake := rfl
@[simp] theorem setKey_reader (k : Key) (r : KeyRec) (s : State) : (setKey k r s).reader = s.reader := rfl
@[simp] theorem setKey_expr (k : Key) (r : KeyRec) (s : State) : (setKey k r s).expr = s.expr := rfl
@[simp] theorem setKey_strike (k : Key) (r : KeyRec) (s : State) : (setKey k r s).strike = s.strike := rfl
@[simp] theorem setKey_pedals (k : Key) (r : KeyRec) (s : State) : (setKey k r s).pedals = s.pedals := rfl
@[simp] theorem setKey_sched (k : Key) (r : KeyRec) (s : State) : (setKey k r s).sched = s.sched := rfl
@[simp] theorem setKey_port (k : Key) (r : KeyRec) (s : State) : (setKey k r s).port = s.port := rfl
@[simp] theorem setKey_calib (k : Key) (r : KeyRec) (s : State) : (setKey k r s).calib = s.calib := rfl
@[simp] theorem setKey_mgmt (k : Key) (r : KeyRec) (s : State) : (setKey k r s).mgmt = s.mgmt := rfl
@[simp] theorem setKey_link (k : Key) (r : KeyRec) (s : State) : (setKey k r s).link = s.link := rfl
@[simp] theorem setKey_pending (k : Key) (r : KeyRec) (s : State) : (setKey k r s).pending = s.pending := rfl

/-! ### updateKey -/

@[simp] theorem updateKey_perf (k : Key) (f : KeyRec → KeyRec) (s : State) : (updateKey k f s).perf = s.perf := rfl
@[simp] theorem updateKey_clock (k : Key) (f : KeyRec → KeyRec) (s : State) : (updateKey k f s).clock = s.clock := rfl
@[simp] theorem updateKey_intake (k : Key) (f : KeyRec → KeyRec) (s : State) : (updateKey k f s).intake = s.intake := rfl
@[simp] theorem updateKey_reader (k : Key) (f : KeyRec → KeyRec) (s : State) : (updateKey k f s).reader = s.reader := rfl
@[simp] theorem updateKey_expr (k : Key) (f : KeyRec → KeyRec) (s : State) : (updateKey k f s).expr = s.expr := rfl
@[simp] theorem updateKey_strike (k : Key) (f : KeyRec → KeyRec) (s : State) : (updateKey k f s).strike = s.strike := rfl
@[simp] theorem updateKey_pedals (k : Key) (f : KeyRec → KeyRec) (s : State) : (updateKey k f s).pedals = s.pedals := rfl
@[simp] theorem updateKey_sched (k : Key) (f : KeyRec → KeyRec) (s : State) : (updateKey k f s).sched = s.sched := rfl
@[simp] theorem updateKey_port (k : Key) (f : KeyRec → KeyRec) (s : State) : (updateKey k f s).port = s.port := rfl
@[simp] theorem updateKey_calib (k : Key) (f : KeyRec → KeyRec) (s : State) : (updateKey k f s).calib = s.calib := rfl
@[simp] theorem updateKey_mgmt (k : Key) (f : KeyRec → KeyRec) (s : State) : (updateKey k f s).mgmt = s.mgmt := rfl
@[simp] theorem updateKey_link (k : Key) (f : KeyRec → KeyRec) (s : State) : (updateKey k f s).link = s.link := rfl
@[simp] theorem updateKey_pending (k : Key) (f : KeyRec → KeyRec) (s : State) : (updateKey k f s).pending = s.pending := rfl

/-! ### mapKeys -/

@[simp] theorem mapKeys_perf (f : Key → KeyRec → KeyRec) (s : State) : (mapKeys f s).perf = s.perf := by simp only [mapKeys]
@[simp] theorem mapKeys_clock (f : Key → KeyRec → KeyRec) (s : State) : (mapKeys f s).clock = s.clock := by simp only [mapKeys]
@[simp] theorem mapKeys_intake (f : Key → KeyRec → KeyRec) (s : State) : (mapKeys f s).intake = s.intake := by simp only [mapKeys]
@[simp] theorem mapKeys_reader (f : Key → KeyRec → KeyRec) (s : State) : (mapKeys f s).reader = s.reader := by simp only [mapKeys]
@[simp] theorem mapKeys_expr (f : Key → KeyRec → KeyRec) (s : State) : (mapKeys f s).expr = s.expr := by simp only [mapKeys]
@[simp] theorem mapKeys_strike (f : Key → KeyRec → KeyRec) (s : State) : (mapKeys f s).strike = s.strike := by simp only [mapKeys]
@[simp] theorem mapKeys_pedals (f : Key → KeyRec → KeyRec) (s : State) : (mapKeys f s).pedals = s.pedals := by simp only [mapKeys]
@[simp] theorem mapKeys_sched (f : Key → KeyRec → KeyRec) (s : State) : (mapKeys f s).sched = s.sched := by simp only [mapKeys]
@[simp] theorem mapKeys_port (f : Key → KeyRec → KeyRec) (s : State) : (mapKeys f s).port = s.port := by simp only [mapKeys]
@[simp] theorem mapKeys_calib (f : Key → KeyRec → KeyRec) (s : State) : (mapKeys f s).calib = s.calib := by simp only [mapKeys]
@[simp] theorem mapKeys_mgmt (f : Key → KeyRec → KeyRec) (s : State) : (mapKeys f s).mgmt = s.mgmt := by simp only [mapKeys]
@[simp] theorem mapKeys_link (f : Key → KeyRec → KeyRec) (s : State) : (mapKeys f s).link = s.link := by simp only [mapKeys]
@[simp] theorem mapKeys_pending (f : Key → KeyRec → KeyRec) (s : State) : (mapKeys f s).pending = s.pending := by simp only [mapKeys]

/-! ### setPedal -/

@[simp] theorem setPedal_perf (p : Pedal) (r : PedalRec) (s : State) : (setPedal p r s).perf = s.perf := by cases p <;> rfl
@[simp] theorem setPedal_clock (p : Pedal) (r : PedalRec) (s : State) : (setPedal p r s).clock = s.clock := by cases p <;> rfl
@[simp] theorem setPedal_intake (p : Pedal) (r : PedalRec) (s : State) : (setPedal p r s).intake = s.intake := by cases p <;> rfl
@[simp] theorem setPedal_reader (p : Pedal) (r : PedalRec) (s : State) : (setPedal p r s).reader = s.reader := by cases p <;> rfl
@[simp] theorem setPedal_expr (p : Pedal) (r : PedalRec) (s : State) : (setPedal p r s).expr = s.expr := by cases p <;> rfl
@[simp] theorem setPedal_strike (p : Pedal) (r : PedalRec) (s : State) : (setPedal p r s).strike = s.strike := by cases p <;> rfl
@[simp] theorem setPedal_sched (p : Pedal) (r : PedalRec) (s : State) : (setPedal p r s).sched = s.sched := by cases p <;> rfl
@[simp] theorem setPedal_keys (p : Pedal) (r : PedalRec) (s : State) : (setPedal p r s).keys = s.keys := by cases p <;> rfl
@[simp] theorem setPedal_port (p : Pedal) (r : PedalRec) (s : State) : (setPedal p r s).port = s.port := by cases p <;> rfl
@[simp] theorem setPedal_calib (p : Pedal) (r : PedalRec) (s : State) : (setPedal p r s).calib = s.calib := by cases p <;> rfl
@[simp] theorem setPedal_mgmt (p : Pedal) (r : PedalRec) (s : State) : (setPedal p r s).mgmt = s.mgmt := by cases p <;> rfl
@[simp] theorem setPedal_link (p : Pedal) (r : PedalRec) (s : State) : (setPedal p r s).link = s.link := by cases p <;> rfl
@[simp] theorem setPedal_pending (p : Pedal) (r : PedalRec) (s : State) : (setPedal p r s).pending = s.pending := by cases p <;> rfl

/-! ### updatePedal -/

@[simp] theorem updatePedal_perf (p : Pedal) (f : PedalRec → PedalRec) (s : State) : (updatePedal p f s).perf = s.perf := by cases p <;> rfl
@[simp] theorem updatePedal_clock (p : Pedal) (f : PedalRec → PedalRec) (s : State) : (updatePedal p f s).clock = s.clock := by cases p <;> rfl
@[simp] theorem updatePedal_intake (p : Pedal) (f : PedalRec → PedalRec) (s : State) : (updatePedal p f s).intake = s.intake := by cases p <;> rfl
@[simp] theorem updatePedal_reader (p : Pedal) (f : PedalRec → PedalRec) (s : State) : (updatePedal p f s).reader = s.reader := by cases p <;> rfl
@[simp] theorem updatePedal_expr (p : Pedal) (f : PedalRec → PedalRec) (s : State) : (updatePedal p f s).expr = s.expr := by cases p <;> rfl
@[simp] theorem updatePedal_strike (p : Pedal) (f : PedalRec → PedalRec) (s : State) : (updatePedal p f s).strike = s.strike := by cases p <;> rfl
@[simp] theorem updatePedal_sched (p : Pedal) (f : PedalRec → PedalRec) (s : State) : (updatePedal p f s).sched = s.sched := by cases p <;> rfl
@[simp] theorem updatePedal_keys (p : Pedal) (f : PedalRec → PedalRec) (s : State) : (updatePedal p f s).keys = s.keys := by cases p <;> rfl
@[simp] theorem updatePedal_port (p : Pedal) (f : PedalRec → PedalRec) (s : State) : (updatePedal p f s).port = s.port := by cases p <;> rfl
@[simp] theorem updatePedal_calib (p : Pedal) (f : PedalRec → PedalRec) (s : State) : (updatePedal p f s).calib = s.calib := by cases p <;> rfl
@[simp] theorem updatePedal_mgmt (p : Pedal) (f : PedalRec → PedalRec) (s : State) : (updatePedal p f s).mgmt = s.mgmt := by cases p <;> rfl
@[simp] theorem updatePedal_link (p : Pedal) (f : PedalRec → PedalRec) (s : State) : (updatePedal p f s).link = s.link := by cases p <;> rfl
@[simp] theorem updatePedal_pending (p : Pedal) (f : PedalRec → PedalRec) (s : State) : (updatePedal p f s).pending = s.pending := by cases p <;> rfl

/-! ### updateBoard -/

@[simp] theorem updateBoard_perf (b : Board) (f : BoardRec → BoardRec) (s : State) : (updateBoard b f s).perf = s.perf := rfl
@[simp] theorem updateBoard_clock (b : Board) (f : BoardRec → BoardRec) (s : State) : (updateBoard b f s).clock = s.clock := rfl
@[simp] theorem updateBoard_intake (b : Board) (f : BoardRec → BoardRec) (s : State) : (updateBoard b f s).intake = s.intake := rfl
@[simp] theorem updateBoard_reader (b : Board) (f : BoardRec → BoardRec) (s : State) : (updateBoard b f s).reader = s.reader := rfl
@[simp] theorem updateBoard_expr (b : Board) (f : BoardRec → BoardRec) (s : State) : (updateBoard b f s).expr = s.expr := rfl
@[simp] theorem updateBoard_strike (b : Board) (f : BoardRec → BoardRec) (s : State) : (updateBoard b f s).strike = s.strike := rfl
@[simp] theorem updateBoard_pedals (b : Board) (f : BoardRec → BoardRec) (s : State) : (updateBoard b f s).pedals = s.pedals := rfl
@[simp] theorem updateBoard_sched (b : Board) (f : BoardRec → BoardRec) (s : State) : (updateBoard b f s).sched = s.sched := rfl
@[simp] theorem updateBoard_keys (b : Board) (f : BoardRec → BoardRec) (s : State) : (updateBoard b f s).keys = s.keys := rfl
@[simp] theorem updateBoard_calib (b : Board) (f : BoardRec → BoardRec) (s : State) : (updateBoard b f s).calib = s.calib := rfl
@[simp] theorem updateBoard_mgmt (b : Board) (f : BoardRec → BoardRec) (s : State) : (updateBoard b f s).mgmt = s.mgmt := rfl
@[simp] theorem updateBoard_link (b : Board) (f : BoardRec → BoardRec) (s : State) : (updateBoard b f s).link = s.link := rfl
@[simp] theorem updateBoard_pending (b : Board) (f : BoardRec → BoardRec) (s : State) : (updateBoard b f s).pending = s.pending := rfl

/-! ### sendAll -/

@[simp] theorem sendAll_perf (cmds : List DriveCmd) (s : State) : (sendAll cmds s).perf = s.perf := rfl
@[simp] theorem sendAll_clock (cmds : List DriveCmd) (s : State) : (sendAll cmds s).clock = s.clock := rfl
@[simp] theorem sendAll_intake (cmds : List DriveCmd) (s : State) : (sendAll cmds s).intake = s.intake := rfl
@[simp] theorem sendAll_reader (cmds : List DriveCmd) (s : State) : (sendAll cmds s).reader = s.reader := rfl
@[simp] theorem sendAll_expr (cmds : List DriveCmd) (s : State) : (sendAll cmds s).expr = s.expr := rfl
@[simp] theorem sendAll_strike (cmds : List DriveCmd) (s : State) : (sendAll cmds s).strike = s.strike := rfl
@[simp] theorem sendAll_pedals (cmds : List DriveCmd) (s : State) : (sendAll cmds s).pedals = s.pedals := rfl
@[simp] theorem sendAll_sched (cmds : List DriveCmd) (s : State) : (sendAll cmds s).sched = s.sched := rfl
@[simp] theorem sendAll_keys (cmds : List DriveCmd) (s : State) : (sendAll cmds s).keys = s.keys := rfl
@[simp] theorem sendAll_port (cmds : List DriveCmd) (s : State) : (sendAll cmds s).port = s.port := rfl
@[simp] theorem sendAll_calib (cmds : List DriveCmd) (s : State) : (sendAll cmds s).calib = s.calib := rfl
@[simp] theorem sendAll_mgmt (cmds : List DriveCmd) (s : State) : (sendAll cmds s).mgmt = s.mgmt := rfl
@[simp] theorem sendAll_pending (cmds : List DriveCmd) (s : State) : (sendAll cmds s).pending = s.pending := rfl

/-! ### sendKey -/

@[simp] theorem sendKey_perf (k : Key) (a : DriveAction) (s : State) : (sendKey k a s).perf = s.perf := rfl
@[simp] theorem sendKey_clock (k : Key) (a : DriveAction) (s : State) : (sendKey k a s).clock = s.clock := rfl
@[simp] theorem sendKey_intake (k : Key) (a : DriveAction) (s : State) : (sendKey k a s).intake = s.intake := rfl
@[simp] theorem sendKey_reader (k : Key) (a : DriveAction) (s : State) : (sendKey k a s).reader = s.reader := rfl
@[simp] theorem sendKey_expr (k : Key) (a : DriveAction) (s : State) : (sendKey k a s).expr = s.expr := rfl
@[simp] theorem sendKey_strike (k : Key) (a : DriveAction) (s : State) : (sendKey k a s).strike = s.strike := rfl
@[simp] theorem sendKey_pedals (k : Key) (a : DriveAction) (s : State) : (sendKey k a s).pedals = s.pedals := rfl
@[simp] theorem sendKey_sched (k : Key) (a : DriveAction) (s : State) : (sendKey k a s).sched = s.sched := rfl
@[simp] theorem sendKey_keys (k : Key) (a : DriveAction) (s : State) : (sendKey k a s).keys = s.keys := rfl
@[simp] theorem sendKey_port (k : Key) (a : DriveAction) (s : State) : (sendKey k a s).port = s.port := rfl
@[simp] theorem sendKey_calib (k : Key) (a : DriveAction) (s : State) : (sendKey k a s).calib = s.calib := rfl
@[simp] theorem sendKey_mgmt (k : Key) (a : DriveAction) (s : State) : (sendKey k a s).mgmt = s.mgmt := rfl
@[simp] theorem sendKey_pending (k : Key) (a : DriveAction) (s : State) : (sendKey k a s).pending = s.pending := rfl

/-! ### sendPedal -/

@[simp] theorem sendPedal_perf (p : Pedal) (a : DriveAction) (s : State) : (sendPedal p a s).perf = s.perf := rfl
@[simp] theorem sendPedal_clock (p : Pedal) (a : DriveAction) (s : State) : (sendPedal p a s).clock = s.clock := rfl
@[simp] theorem sendPedal_intake (p : Pedal) (a : DriveAction) (s : State) : (sendPedal p a s).intake = s.intake := rfl
@[simp] theorem sendPedal_reader (p : Pedal) (a : DriveAction) (s : State) : (sendPedal p a s).reader = s.reader := rfl
@[simp] theorem sendPedal_expr (p : Pedal) (a : DriveAction) (s : State) : (sendPedal p a s).expr = s.expr := rfl
@[simp] theorem sendPedal_strike (p : Pedal) (a : DriveAction) (s : State) : (sendPedal p a s).strike = s.strike := rfl
@[simp] theorem sendPedal_pedals (p : Pedal) (a : DriveAction) (s : State) : (sendPedal p a s).pedals = s.pedals := rfl
@[simp] theorem sendPedal_sched (p : Pedal) (a : DriveAction) (s : State) : (sendPedal p a s).sched = s.sched := rfl
@[simp] theorem sendPedal_keys (p : Pedal) (a : DriveAction) (s : State) : (sendPedal p a s).keys = s.keys := rfl
@[simp] theorem sendPedal_port (p : Pedal) (a : DriveAction) (s : State) : (sendPedal p a s).port = s.port := rfl
@[simp] theorem sendPedal_calib (p : Pedal) (a : DriveAction) (s : State) : (sendPedal p a s).calib = s.calib := rfl
@[simp] theorem sendPedal_mgmt (p : Pedal) (a : DriveAction) (s : State) : (sendPedal p a s).mgmt = s.mgmt := rfl
@[simp] theorem sendPedal_pending (p : Pedal) (a : DriveAction) (s : State) : (sendPedal p a s).pending = s.pending := rfl

/-! ### pushFrame -/

@[simp] theorem pushFrame_perf (f : OutFrame) (s : State) : (pushFrame f s).perf = s.perf := rfl
@[simp] theorem pushFrame_clock (f : OutFrame) (s : State) : (pushFrame f s).clock = s.clock := rfl
@[simp] theorem pushFrame_intake (f : OutFrame) (s : State) : (pushFrame f s).intake = s.intake := rfl
@[simp] theorem pushFrame_reader (f : OutFrame) (s : State) : (pushFrame f s).reader = s.reader := rfl
@[simp] theorem pushFrame_expr (f : OutFrame) (s : State) : (pushFrame f s).expr = s.expr := rfl
@[simp] theorem pushFrame_strike (f : OutFrame) (s : State) : (pushFrame f s).strike = s.strike := rfl
@[simp] theorem pushFrame_pedals (f : OutFrame) (s : State) : (pushFrame f s).pedals = s.pedals := rfl
@[simp] theorem pushFrame_sched (f : OutFrame) (s : State) : (pushFrame f s).sched = s.sched := rfl
@[simp] theorem pushFrame_keys (f : OutFrame) (s : State) : (pushFrame f s).keys = s.keys := rfl
@[simp] theorem pushFrame_port (f : OutFrame) (s : State) : (pushFrame f s).port = s.port := rfl
@[simp] theorem pushFrame_calib (f : OutFrame) (s : State) : (pushFrame f s).calib = s.calib := rfl
@[simp] theorem pushFrame_link (f : OutFrame) (s : State) : (pushFrame f s).link = s.link := rfl
@[simp] theorem pushFrame_pending (f : OutFrame) (s : State) : (pushFrame f s).pending = s.pending := rfl

/-! ### dueNotice -/

@[simp] theorem dueNotice_perf (c : Bool) (s : State) : (dueNotice c s).perf = s.perf := by unfold dueNotice; split <;> rfl
@[simp] theorem dueNotice_clock (c : Bool) (s : State) : (dueNotice c s).clock = s.clock := by unfold dueNotice; split <;> rfl
@[simp] theorem dueNotice_intake (c : Bool) (s : State) : (dueNotice c s).intake = s.intake := by unfold dueNotice; split <;> rfl
@[simp] theorem dueNotice_reader (c : Bool) (s : State) : (dueNotice c s).reader = s.reader := by unfold dueNotice; split <;> rfl
@[simp] theorem dueNotice_expr (c : Bool) (s : State) : (dueNotice c s).expr = s.expr := by unfold dueNotice; split <;> rfl
@[simp] theorem dueNotice_strike (c : Bool) (s : State) : (dueNotice c s).strike = s.strike := by unfold dueNotice; split <;> rfl
@[simp] theorem dueNotice_pedals (c : Bool) (s : State) : (dueNotice c s).pedals = s.pedals := by unfold dueNotice; split <;> rfl
@[simp] theorem dueNotice_sched (c : Bool) (s : State) : (dueNotice c s).sched = s.sched := by unfold dueNotice; split <;> rfl
@[simp] theorem dueNotice_keys (c : Bool) (s : State) : (dueNotice c s).keys = s.keys := by unfold dueNotice; split <;> rfl
@[simp] theorem dueNotice_port (c : Bool) (s : State) : (dueNotice c s).port = s.port := by unfold dueNotice; split <;> rfl
@[simp] theorem dueNotice_calib (c : Bool) (s : State) : (dueNotice c s).calib = s.calib := by unfold dueNotice; split <;> rfl
@[simp] theorem dueNotice_link (c : Bool) (s : State) : (dueNotice c s).link = s.link := by unfold dueNotice; split <;> rfl
@[simp] theorem dueNotice_pending (c : Bool) (s : State) : (dueNotice c s).pending = s.pending := by unfold dueNotice; split <;> rfl

/-! ### withdrawNotice -/

@[simp] theorem withdrawNotice_perf (s : State) : (withdrawNotice s).perf = s.perf := rfl
@[simp] theorem withdrawNotice_clock (s : State) : (withdrawNotice s).clock = s.clock := rfl
@[simp] theorem withdrawNotice_intake (s : State) : (withdrawNotice s).intake = s.intake := rfl
@[simp] theorem withdrawNotice_reader (s : State) : (withdrawNotice s).reader = s.reader := rfl
@[simp] theorem withdrawNotice_expr (s : State) : (withdrawNotice s).expr = s.expr := rfl
@[simp] theorem withdrawNotice_strike (s : State) : (withdrawNotice s).strike = s.strike := rfl
@[simp] theorem withdrawNotice_pedals (s : State) : (withdrawNotice s).pedals = s.pedals := rfl
@[simp] theorem withdrawNotice_sched (s : State) : (withdrawNotice s).sched = s.sched := rfl
@[simp] theorem withdrawNotice_keys (s : State) : (withdrawNotice s).keys = s.keys := rfl
@[simp] theorem withdrawNotice_port (s : State) : (withdrawNotice s).port = s.port := rfl
@[simp] theorem withdrawNotice_calib (s : State) : (withdrawNotice s).calib = s.calib := rfl
@[simp] theorem withdrawNotice_link (s : State) : (withdrawNotice s).link = s.link := rfl
@[simp] theorem withdrawNotice_pending (s : State) : (withdrawNotice s).pending = s.pending := rfl

/-! ### setProbe -/

@[simp] theorem setProbe_perf (p : ProbeRec) (s : State) : (setProbe p s).perf = s.perf := rfl
@[simp] theorem setProbe_clock (p : ProbeRec) (s : State) : (setProbe p s).clock = s.clock := rfl
@[simp] theorem setProbe_intake (p : ProbeRec) (s : State) : (setProbe p s).intake = s.intake := rfl
@[simp] theorem setProbe_reader (p : ProbeRec) (s : State) : (setProbe p s).reader = s.reader := rfl
@[simp] theorem setProbe_expr (p : ProbeRec) (s : State) : (setProbe p s).expr = s.expr := rfl
@[simp] theorem setProbe_strike (p : ProbeRec) (s : State) : (setProbe p s).strike = s.strike := rfl
@[simp] theorem setProbe_pedals (p : ProbeRec) (s : State) : (setProbe p s).pedals = s.pedals := rfl
@[simp] theorem setProbe_sched (p : ProbeRec) (s : State) : (setProbe p s).sched = s.sched := rfl
@[simp] theorem setProbe_keys (p : ProbeRec) (s : State) : (setProbe p s).keys = s.keys := rfl
@[simp] theorem setProbe_port (p : ProbeRec) (s : State) : (setProbe p s).port = s.port := rfl
@[simp] theorem setProbe_mgmt (p : ProbeRec) (s : State) : (setProbe p s).mgmt = s.mgmt := rfl
@[simp] theorem setProbe_link (p : ProbeRec) (s : State) : (setProbe p s).link = s.link := rfl
@[simp] theorem setProbe_pending (p : ProbeRec) (s : State) : (setProbe p s).pending = s.pending := rfl

/-! ### removeEntry -/

@[simp] theorem removeEntry_perf (k : Key) (s : State) : (removeEntry k s).perf = s.perf := rfl
@[simp] theorem removeEntry_clock (k : Key) (s : State) : (removeEntry k s).clock = s.clock := rfl
@[simp] theorem removeEntry_intake (k : Key) (s : State) : (removeEntry k s).intake = s.intake := rfl
@[simp] theorem removeEntry_reader (k : Key) (s : State) : (removeEntry k s).reader = s.reader := rfl
@[simp] theorem removeEntry_expr (k : Key) (s : State) : (removeEntry k s).expr = s.expr := rfl
@[simp] theorem removeEntry_strike (k : Key) (s : State) : (removeEntry k s).strike = s.strike := rfl
@[simp] theorem removeEntry_pedals (k : Key) (s : State) : (removeEntry k s).pedals = s.pedals := rfl
@[simp] theorem removeEntry_keys (k : Key) (s : State) : (removeEntry k s).keys = s.keys := rfl
@[simp] theorem removeEntry_port (k : Key) (s : State) : (removeEntry k s).port = s.port := rfl
@[simp] theorem removeEntry_calib (k : Key) (s : State) : (removeEntry k s).calib = s.calib := rfl
@[simp] theorem removeEntry_mgmt (k : Key) (s : State) : (removeEntry k s).mgmt = s.mgmt := rfl
@[simp] theorem removeEntry_link (k : Key) (s : State) : (removeEntry k s).link = s.link := rfl
@[simp] theorem removeEntry_pending (k : Key) (s : State) : (removeEntry k s).pending = s.pending := rfl

/-! ### setOwedCount -/

@[simp] theorem setOwedCount_perf (n : Nat) (s : State) : (setOwedCount n s).perf = s.perf := rfl
@[simp] theorem setOwedCount_clock (n : Nat) (s : State) : (setOwedCount n s).clock = s.clock := rfl
@[simp] theorem setOwedCount_intake (n : Nat) (s : State) : (setOwedCount n s).intake = s.intake := rfl
@[simp] theorem setOwedCount_reader (n : Nat) (s : State) : (setOwedCount n s).reader = s.reader := rfl
@[simp] theorem setOwedCount_expr (n : Nat) (s : State) : (setOwedCount n s).expr = s.expr := rfl
@[simp] theorem setOwedCount_strike (n : Nat) (s : State) : (setOwedCount n s).strike = s.strike := rfl
@[simp] theorem setOwedCount_pedals (n : Nat) (s : State) : (setOwedCount n s).pedals = s.pedals := rfl
@[simp] theorem setOwedCount_keys (n : Nat) (s : State) : (setOwedCount n s).keys = s.keys := rfl
@[simp] theorem setOwedCount_port (n : Nat) (s : State) : (setOwedCount n s).port = s.port := rfl
@[simp] theorem setOwedCount_calib (n : Nat) (s : State) : (setOwedCount n s).calib = s.calib := rfl
@[simp] theorem setOwedCount_mgmt (n : Nat) (s : State) : (setOwedCount n s).mgmt = s.mgmt := rfl
@[simp] theorem setOwedCount_link (n : Nat) (s : State) : (setOwedCount n s).link = s.link := rfl
@[simp] theorem setOwedCount_pending (n : Nat) (s : State) : (setOwedCount n s).pending = s.pending := rfl

/-! ### stopWith -/

@[simp] theorem stopWith_clock (r : StopReason) (s : State) : (stopWith r s).clock = s.clock := rfl
@[simp] theorem stopWith_intake (r : StopReason) (s : State) : (stopWith r s).intake = s.intake := rfl
@[simp] theorem stopWith_reader (r : StopReason) (s : State) : (stopWith r s).reader = s.reader := rfl
@[simp] theorem stopWith_expr (r : StopReason) (s : State) : (stopWith r s).expr = s.expr := rfl
@[simp] theorem stopWith_strike (r : StopReason) (s : State) : (stopWith r s).strike = s.strike := rfl
@[simp] theorem stopWith_pedals (r : StopReason) (s : State) : (stopWith r s).pedals = s.pedals := rfl
@[simp] theorem stopWith_sched (r : StopReason) (s : State) : (stopWith r s).sched = s.sched := rfl
@[simp] theorem stopWith_keys (r : StopReason) (s : State) : (stopWith r s).keys = s.keys := rfl
@[simp] theorem stopWith_port (r : StopReason) (s : State) : (stopWith r s).port = s.port := rfl
@[simp] theorem stopWith_calib (r : StopReason) (s : State) : (stopWith r s).calib = s.calib := rfl
@[simp] theorem stopWith_mgmt (r : StopReason) (s : State) : (stopWith r s).mgmt = s.mgmt := rfl
@[simp] theorem stopWith_link (r : StopReason) (s : State) : (stopWith r s).link = s.link := rfl
@[simp] theorem stopWith_pending (r : StopReason) (s : State) : (stopWith r s).pending = s.pending := rfl

/-! ### setPausePoint -/

@[simp] theorem setPausePoint_clock (t : Nat) (s : State) : (setPausePoint t s).clock = s.clock := by unfold setPausePoint; split <;> rfl
@[simp] theorem setPausePoint_intake (t : Nat) (s : State) : (setPausePoint t s).intake = s.intake := by unfold setPausePoint; split <;> rfl
@[simp] theorem setPausePoint_reader (t : Nat) (s : State) : (setPausePoint t s).reader = s.reader := by unfold setPausePoint; split <;> rfl
@[simp] theorem setPausePoint_expr (t : Nat) (s : State) : (setPausePoint t s).expr = s.expr := by unfold setPausePoint; split <;> rfl
@[simp] theorem setPausePoint_strike (t : Nat) (s : State) : (setPausePoint t s).strike = s.strike := by unfold setPausePoint; split <;> rfl
@[simp] theorem setPausePoint_pedals (t : Nat) (s : State) : (setPausePoint t s).pedals = s.pedals := by unfold setPausePoint; split <;> rfl
@[simp] theorem setPausePoint_sched (t : Nat) (s : State) : (setPausePoint t s).sched = s.sched := by unfold setPausePoint; split <;> rfl
@[simp] theorem setPausePoint_keys (t : Nat) (s : State) : (setPausePoint t s).keys = s.keys := by unfold setPausePoint; split <;> rfl
@[simp] theorem setPausePoint_port (t : Nat) (s : State) : (setPausePoint t s).port = s.port := by unfold setPausePoint; split <;> rfl
@[simp] theorem setPausePoint_calib (t : Nat) (s : State) : (setPausePoint t s).calib = s.calib := by unfold setPausePoint; split <;> rfl
@[simp] theorem setPausePoint_mgmt (t : Nat) (s : State) : (setPausePoint t s).mgmt = s.mgmt := by unfold setPausePoint; split <;> rfl
@[simp] theorem setPausePoint_link (t : Nat) (s : State) : (setPausePoint t s).link = s.link := by unfold setPausePoint; split <;> rfl
@[simp] theorem setPausePoint_pending (t : Nat) (s : State) : (setPausePoint t s).pending = s.pending := by unfold setPausePoint; split <;> rfl

/-! ### startLossTimer -/

@[simp] theorem startLossTimer_clock (s : State) : (startLossTimer s).clock = s.clock := rfl
@[simp] theorem startLossTimer_intake (s : State) : (startLossTimer s).intake = s.intake := rfl
@[simp] theorem startLossTimer_reader (s : State) : (startLossTimer s).reader = s.reader := rfl
@[simp] theorem startLossTimer_expr (s : State) : (startLossTimer s).expr = s.expr := rfl
@[simp] theorem startLossTimer_strike (s : State) : (startLossTimer s).strike = s.strike := rfl
@[simp] theorem startLossTimer_pedals (s : State) : (startLossTimer s).pedals = s.pedals := rfl
@[simp] theorem startLossTimer_sched (s : State) : (startLossTimer s).sched = s.sched := rfl
@[simp] theorem startLossTimer_keys (s : State) : (startLossTimer s).keys = s.keys := rfl
@[simp] theorem startLossTimer_port (s : State) : (startLossTimer s).port = s.port := rfl
@[simp] theorem startLossTimer_calib (s : State) : (startLossTimer s).calib = s.calib := rfl
@[simp] theorem startLossTimer_mgmt (s : State) : (startLossTimer s).mgmt = s.mgmt := rfl
@[simp] theorem startLossTimer_link (s : State) : (startLossTimer s).link = s.link := rfl
@[simp] theorem startLossTimer_pending (s : State) : (startLossTimer s).pending = s.pending := rfl

/-! ### recordLine -/

@[simp] theorem recordLine_perf (n t : Nat) (s : State) : (recordLine n t s).perf = s.perf := rfl
@[simp] theorem recordLine_clock (n t : Nat) (s : State) : (recordLine n t s).clock = s.clock := rfl
@[simp] theorem recordLine_reader (n t : Nat) (s : State) : (recordLine n t s).reader = s.reader := rfl
@[simp] theorem recordLine_expr (n t : Nat) (s : State) : (recordLine n t s).expr = s.expr := rfl
@[simp] theorem recordLine_strike (n t : Nat) (s : State) : (recordLine n t s).strike = s.strike := rfl
@[simp] theorem recordLine_pedals (n t : Nat) (s : State) : (recordLine n t s).pedals = s.pedals := rfl
@[simp] theorem recordLine_sched (n t : Nat) (s : State) : (recordLine n t s).sched = s.sched := rfl
@[simp] theorem recordLine_keys (n t : Nat) (s : State) : (recordLine n t s).keys = s.keys := rfl
@[simp] theorem recordLine_port (n t : Nat) (s : State) : (recordLine n t s).port = s.port := rfl
@[simp] theorem recordLine_calib (n t : Nat) (s : State) : (recordLine n t s).calib = s.calib := rfl
@[simp] theorem recordLine_mgmt (n t : Nat) (s : State) : (recordLine n t s).mgmt = s.mgmt := rfl
@[simp] theorem recordLine_link (n t : Nat) (s : State) : (recordLine n t s).link = s.link := rfl
@[simp] theorem recordLine_pending (n t : Nat) (s : State) : (recordLine n t s).pending = s.pending := rfl

/-! ### noteStrike -/

@[simp] theorem noteStrike_perf (k : Key) (v : StrikeVals) (t : Tag) (f : Nat) (s : State) : (noteStrike k v t f s).perf = s.perf := rfl
@[simp] theorem noteStrike_clock (k : Key) (v : StrikeVals) (t : Tag) (f : Nat) (s : State) : (noteStrike k v t f s).clock = s.clock := rfl
@[simp] theorem noteStrike_intake (k : Key) (v : StrikeVals) (t : Tag) (f : Nat) (s : State) : (noteStrike k v t f s).intake = s.intake := rfl
@[simp] theorem noteStrike_reader (k : Key) (v : StrikeVals) (t : Tag) (f : Nat) (s : State) : (noteStrike k v t f s).reader = s.reader := rfl
@[simp] theorem noteStrike_expr (k : Key) (v : StrikeVals) (t : Tag) (f : Nat) (s : State) : (noteStrike k v t f s).expr = s.expr := rfl
@[simp] theorem noteStrike_pedals (k : Key) (v : StrikeVals) (t : Tag) (f : Nat) (s : State) : (noteStrike k v t f s).pedals = s.pedals := rfl
@[simp] theorem noteStrike_sched (k : Key) (v : StrikeVals) (t : Tag) (f : Nat) (s : State) : (noteStrike k v t f s).sched = s.sched := rfl
@[simp] theorem noteStrike_keys (k : Key) (v : StrikeVals) (t : Tag) (f : Nat) (s : State) : (noteStrike k v t f s).keys = s.keys := rfl
@[simp] theorem noteStrike_port (k : Key) (v : StrikeVals) (t : Tag) (f : Nat) (s : State) : (noteStrike k v t f s).port = s.port := rfl
@[simp] theorem noteStrike_calib (k : Key) (v : StrikeVals) (t : Tag) (f : Nat) (s : State) : (noteStrike k v t f s).calib = s.calib := rfl
@[simp] theorem noteStrike_mgmt (k : Key) (v : StrikeVals) (t : Tag) (f : Nat) (s : State) : (noteStrike k v t f s).mgmt = s.mgmt := rfl
@[simp] theorem noteStrike_link (k : Key) (v : StrikeVals) (t : Tag) (f : Nat) (s : State) : (noteStrike k v t f s).link = s.link := rfl
@[simp] theorem noteStrike_pending (k : Key) (v : StrikeVals) (t : Tag) (f : Nat) (s : State) : (noteStrike k v t f s).pending = s.pending := rfl

/-! ### setLoop -/

@[simp] theorem setLoop_perf (l : LoopRec) (s : State) : (setLoop l s).perf = s.perf := by simp [setLoop]
@[simp] theorem setLoop_intake (l : LoopRec) (s : State) : (setLoop l s).intake = s.intake := by simp [setLoop]
@[simp] theorem setLoop_reader (l : LoopRec) (s : State) : (setLoop l s).reader = s.reader := by simp [setLoop]
@[simp] theorem setLoop_expr (l : LoopRec) (s : State) : (setLoop l s).expr = s.expr := by simp [setLoop]
@[simp] theorem setLoop_strike (l : LoopRec) (s : State) : (setLoop l s).strike = s.strike := by simp [setLoop]
@[simp] theorem setLoop_pedals (l : LoopRec) (s : State) : (setLoop l s).pedals = s.pedals := by simp [setLoop]
@[simp] theorem setLoop_sched (l : LoopRec) (s : State) : (setLoop l s).sched = s.sched := by simp [setLoop]
@[simp] theorem setLoop_keys (l : LoopRec) (s : State) : (setLoop l s).keys = s.keys := by simp [setLoop]
@[simp] theorem setLoop_port (l : LoopRec) (s : State) : (setLoop l s).port = s.port := by simp [setLoop]
@[simp] theorem setLoop_calib (l : LoopRec) (s : State) : (setLoop l s).calib = s.calib := by simp [setLoop]
@[simp] theorem setLoop_link (l : LoopRec) (s : State) : (setLoop l s).link = s.link := by simp [setLoop]
@[simp] theorem setLoop_pending (l : LoopRec) (s : State) : (setLoop l s).pending = s.pending := by simp [setLoop]

/-! ### completeSwitch -/

@[simp] theorem completeSwitch_perf (s : State) : (completeSwitch s).perf = s.perf := by unfold completeSwitch; split <;> rfl
@[simp] theorem completeSwitch_intake (s : State) : (completeSwitch s).intake = s.intake := by unfold completeSwitch; split <;> rfl
@[simp] theorem completeSwitch_reader (s : State) : (completeSwitch s).reader = s.reader := by unfold completeSwitch; split <;> rfl
@[simp] theorem completeSwitch_expr (s : State) : (completeSwitch s).expr = s.expr := by unfold completeSwitch; split <;> rfl
@[simp] theorem completeSwitch_strike (s : State) : (completeSwitch s).strike = s.strike := by unfold completeSwitch; split <;> rfl
@[simp] theorem completeSwitch_pedals (s : State) : (completeSwitch s).pedals = s.pedals := by unfold completeSwitch; split <;> rfl
@[simp] theorem completeSwitch_sched (s : State) : (completeSwitch s).sched = s.sched := by unfold completeSwitch; split <;> rfl
@[simp] theorem completeSwitch_keys (s : State) : (completeSwitch s).keys = s.keys := by unfold completeSwitch; split <;> rfl
@[simp] theorem completeSwitch_port (s : State) : (completeSwitch s).port = s.port := by unfold completeSwitch; split <;> rfl
@[simp] theorem completeSwitch_calib (s : State) : (completeSwitch s).calib = s.calib := by unfold completeSwitch; split <;> rfl
@[simp] theorem completeSwitch_mgmt (s : State) : (completeSwitch s).mgmt = s.mgmt := by unfold completeSwitch; split <;> rfl
@[simp] theorem completeSwitch_link (s : State) : (completeSwitch s).link = s.link := by unfold completeSwitch; split <;> rfl
@[simp] theorem completeSwitch_pending (s : State) : (completeSwitch s).pending = s.pending := by unfold completeSwitch; split <;> rfl

/-! ### addWaiting -/

@[simp] theorem addWaiting_perf (c : Instr) (s : State) : (addWaiting c s).perf = s.perf := rfl
@[simp] theorem addWaiting_clock (c : Instr) (s : State) : (addWaiting c s).clock = s.clock := rfl
@[simp] theorem addWaiting_intake (c : Instr) (s : State) : (addWaiting c s).intake = s.intake := rfl
@[simp] theorem addWaiting_reader (c : Instr) (s : State) : (addWaiting c s).reader = s.reader := rfl
@[simp] theorem addWaiting_expr (c : Instr) (s : State) : (addWaiting c s).expr = s.expr := rfl
@[simp] theorem addWaiting_strike (c : Instr) (s : State) : (addWaiting c s).strike = s.strike := rfl
@[simp] theorem addWaiting_pedals (c : Instr) (s : State) : (addWaiting c s).pedals = s.pedals := rfl
@[simp] theorem addWaiting_sched (c : Instr) (s : State) : (addWaiting c s).sched = s.sched := rfl
@[simp] theorem addWaiting_keys (c : Instr) (s : State) : (addWaiting c s).keys = s.keys := rfl
@[simp] theorem addWaiting_port (c : Instr) (s : State) : (addWaiting c s).port = s.port := rfl
@[simp] theorem addWaiting_calib (c : Instr) (s : State) : (addWaiting c s).calib = s.calib := rfl
@[simp] theorem addWaiting_link (c : Instr) (s : State) : (addWaiting c s).link = s.link := rfl
@[simp] theorem addWaiting_pending (c : Instr) (s : State) : (addWaiting c s).pending = s.pending := rfl

/-! ### The Management Unit's fields -/

@[simp] theorem raise_enables (f : Flag) (s : State) : (raise f s).mgmt.enables = s.mgmt.enables := rfl
@[simp] theorem raise_counters (f : Flag) (s : State) : (raise f s).mgmt.counters = s.mgmt.counters := rfl
@[simp] theorem raise_outbound (f : Flag) (s : State) : (raise f s).mgmt.outbound = s.mgmt.outbound := rfl
@[simp] theorem raise_fullReset (f : Flag) (s : State) : (raise f s).mgmt.fullReset = s.mgmt.fullReset := rfl
@[simp] theorem raise_waiting (f : Flag) (s : State) : (raise f s).mgmt.waiting = s.mgmt.waiting := rfl

@[simp] theorem raiseIf_enables (c : Bool) (f : Flag) (s : State) : (raiseIf c f s).mgmt.enables = s.mgmt.enables := by cases c <;> rfl
@[simp] theorem raiseIf_counters (c : Bool) (f : Flag) (s : State) : (raiseIf c f s).mgmt.counters = s.mgmt.counters := by cases c <;> rfl
@[simp] theorem raiseIf_outbound (c : Bool) (f : Flag) (s : State) : (raiseIf c f s).mgmt.outbound = s.mgmt.outbound := by cases c <;> rfl
@[simp] theorem raiseIf_fullReset (c : Bool) (f : Flag) (s : State) : (raiseIf c f s).mgmt.fullReset = s.mgmt.fullReset := by cases c <;> rfl
@[simp] theorem raiseIf_waiting (c : Bool) (f : Flag) (s : State) : (raiseIf c f s).mgmt.waiting = s.mgmt.waiting := by cases c <;> rfl

@[simp] theorem countBy_flags (n : Nat) (c : Counter) (s : State) : (countBy n c s).mgmt.flags = s.mgmt.flags := rfl
@[simp] theorem countBy_enables (n : Nat) (c : Counter) (s : State) : (countBy n c s).mgmt.enables = s.mgmt.enables := rfl
@[simp] theorem countBy_outbound (n : Nat) (c : Counter) (s : State) : (countBy n c s).mgmt.outbound = s.mgmt.outbound := rfl
@[simp] theorem countBy_fullReset (n : Nat) (c : Counter) (s : State) : (countBy n c s).mgmt.fullReset = s.mgmt.fullReset := rfl
@[simp] theorem countBy_waiting (n : Nat) (c : Counter) (s : State) : (countBy n c s).mgmt.waiting = s.mgmt.waiting := rfl

@[simp] theorem count_flags (c : Counter) (s : State) : (count c s).mgmt.flags = s.mgmt.flags := rfl
@[simp] theorem count_enables (c : Counter) (s : State) : (count c s).mgmt.enables = s.mgmt.enables := rfl
@[simp] theorem count_outbound (c : Counter) (s : State) : (count c s).mgmt.outbound = s.mgmt.outbound := rfl
@[simp] theorem count_fullReset (c : Counter) (s : State) : (count c s).mgmt.fullReset = s.mgmt.fullReset := rfl
@[simp] theorem count_waiting (c : Counter) (s : State) : (count c s).mgmt.waiting = s.mgmt.waiting := rfl

@[simp] theorem pushFrame_flags (f : OutFrame) (s : State) : (pushFrame f s).mgmt.flags = s.mgmt.flags := rfl
@[simp] theorem pushFrame_enables (f : OutFrame) (s : State) : (pushFrame f s).mgmt.enables = s.mgmt.enables := rfl
@[simp] theorem pushFrame_counters (f : OutFrame) (s : State) : (pushFrame f s).mgmt.counters = s.mgmt.counters := rfl
@[simp] theorem pushFrame_fullReset (f : OutFrame) (s : State) : (pushFrame f s).mgmt.fullReset = s.mgmt.fullReset := rfl
@[simp] theorem pushFrame_waiting (f : OutFrame) (s : State) : (pushFrame f s).mgmt.waiting = s.mgmt.waiting := rfl

@[simp] theorem dueNotice_flags (c : Bool) (s : State) : (dueNotice c s).mgmt.flags = s.mgmt.flags := by unfold dueNotice; split <;> rfl
@[simp] theorem dueNotice_enables (c : Bool) (s : State) : (dueNotice c s).mgmt.enables = s.mgmt.enables := by unfold dueNotice; split <;> rfl
@[simp] theorem dueNotice_counters (c : Bool) (s : State) : (dueNotice c s).mgmt.counters = s.mgmt.counters := by unfold dueNotice; split <;> rfl
@[simp] theorem dueNotice_fullReset (c : Bool) (s : State) : (dueNotice c s).mgmt.fullReset = s.mgmt.fullReset := by unfold dueNotice; split <;> rfl
@[simp] theorem dueNotice_waiting (c : Bool) (s : State) : (dueNotice c s).mgmt.waiting = s.mgmt.waiting := by unfold dueNotice; split <;> rfl

@[simp] theorem withdrawNotice_flags (s : State) : (withdrawNotice s).mgmt.flags = s.mgmt.flags := rfl
@[simp] theorem withdrawNotice_enables (s : State) : (withdrawNotice s).mgmt.enables = s.mgmt.enables := rfl
@[simp] theorem withdrawNotice_counters (s : State) : (withdrawNotice s).mgmt.counters = s.mgmt.counters := rfl
@[simp] theorem withdrawNotice_fullReset (s : State) : (withdrawNotice s).mgmt.fullReset = s.mgmt.fullReset := rfl
@[simp] theorem withdrawNotice_waiting (s : State) : (withdrawNotice s).mgmt.waiting = s.mgmt.waiting := rfl

@[simp] theorem addWaiting_flags (c : Instr) (s : State) : (addWaiting c s).mgmt.flags = s.mgmt.flags := rfl
@[simp] theorem addWaiting_enables (c : Instr) (s : State) : (addWaiting c s).mgmt.enables = s.mgmt.enables := rfl
@[simp] theorem addWaiting_counters (c : Instr) (s : State) : (addWaiting c s).mgmt.counters = s.mgmt.counters := rfl
@[simp] theorem addWaiting_outbound (c : Instr) (s : State) : (addWaiting c s).mgmt.outbound = s.mgmt.outbound := rfl
@[simp] theorem addWaiting_fullReset (c : Instr) (s : State) : (addWaiting c s).mgmt.fullReset = s.mgmt.fullReset := rfl

@[simp] theorem setLoop_enables (l : LoopRec) (s : State) : (setLoop l s).mgmt.enables = s.mgmt.enables := by simp [setLoop]
@[simp] theorem setLoop_counters (l : LoopRec) (s : State) : (setLoop l s).mgmt.counters = s.mgmt.counters := by simp [setLoop]
@[simp] theorem setLoop_outbound (l : LoopRec) (s : State) : (setLoop l s).mgmt.outbound = s.mgmt.outbound := by simp [setLoop]
@[simp] theorem setLoop_fullReset (l : LoopRec) (s : State) : (setLoop l s).mgmt.fullReset = s.mgmt.fullReset := by simp [setLoop]
@[simp] theorem setLoop_waiting (l : LoopRec) (s : State) : (setLoop l s).mgmt.waiting = s.mgmt.waiting := by simp [setLoop]

/-! ### Reading back what was written -/

@[simp] theorem key_setKey_self (k : Key) (r : KeyRec) (s : State) : (setKey k r s).key k = r := by
  simp [setKey, State.key]

theorem key_setKey_ne {j k : Key} (h : j ≠ k) (r : KeyRec) (s : State) : (setKey k r s).key j = s.key j := by
  have hv : k.val ≠ j.val := fun e => h (Fin.ext e.symm)
  simp [setKey, State.key, Vector.getElem_set_ne, hv]

@[simp] theorem key_updateKey_self (k : Key) (f : KeyRec → KeyRec) (s : State) :
    (updateKey k f s).key k = f (s.key k) := by
  simp [updateKey]

theorem key_updateKey_ne {j k : Key} (h : j ≠ k) (f : KeyRec → KeyRec) (s : State) :
    (updateKey k f s).key j = s.key j := key_setKey_ne h _ s

/-- A key's record after the record of some key has changed. -/
theorem key_updateKey (j k : Key) (f : KeyRec → KeyRec) (s : State) :
    (updateKey k f s).key j = if j = k then f (s.key k) else s.key j := by
  split
  · next h => subst h; simp
  · next h => exact key_updateKey_ne h f s

@[simp] theorem key_mapKeys (j : Key) (f : Key → KeyRec → KeyRec) (s : State) :
    (mapKeys f s).key j = f j (s.key j) := by
  simp [mapKeys, State.key]

@[simp] theorem pedal_setPedal_self (p : Pedal) (r : PedalRec) (s : State) : (setPedal p r s).pedal p = r := by
  cases p <;> rfl

theorem pedal_setPedal_ne {p q : Pedal} (h : q ≠ p) (r : PedalRec) (s : State) :
    (setPedal p r s).pedal q = s.pedal q := by
  cases p <;> cases q <;> first | rfl | exact absurd rfl h

@[simp] theorem pedal_updatePedal_self (p : Pedal) (f : PedalRec → PedalRec) (s : State) :
    (updatePedal p f s).pedal p = f (s.pedal p) := by
  simp [updatePedal]

theorem pedal_updatePedal_ne {p q : Pedal} (h : q ≠ p) (f : PedalRec → PedalRec) (s : State) :
    (updatePedal p f s).pedal q = s.pedal q := pedal_setPedal_ne h _ s

/-- A pedal's record after the record of some pedal has changed. -/
theorem pedal_updatePedal (q p : Pedal) (f : PedalRec → PedalRec) (s : State) :
    (updatePedal p f s).pedal q = if q = p then f (s.pedal p) else s.pedal q := by
  split
  · next h => subst h; simp
  · next h => exact pedal_updatePedal_ne h f s

@[simp] theorem board_updateBoard_self (b : Board) (f : BoardRec → BoardRec) (s : State) :
    (updateBoard b f s).board b = f (s.board b) := by
  simp [updateBoard, State.board]

theorem board_updateBoard_ne {b c : Board} (h : c ≠ b) (f : BoardRec → BoardRec) (s : State) :
    (updateBoard b f s).board c = s.board c := by
  have hv : b.val ≠ c.val := fun e => h (Fin.ext e.symm)
  simp [updateBoard, State.board, Vector.getElem_set_ne, hv]

/-- A board's record after the record of some board has changed. -/
theorem board_updateBoard (c b : Board) (f : BoardRec → BoardRec) (s : State) :
    (updateBoard b f s).board c = if c = b then f (s.board b) else s.board c := by
  split
  · next h => subst h; simp
  · next h => exact board_updateBoard_ne h f s

@[simp] theorem updateBoard_profile (b : Board) (f : BoardRec → BoardRec) (s : State) :
    (updateBoard b f s).port.profile = s.port.profile := rfl

/-- The flags of a state are its Management Unit's. -/
theorem flag_congr {s t : State} (h : s.mgmt.flags = t.mgmt.flags) (f : Flag) : s.flag f = t.flag f := by
  simp [State.flag, h]

/-- Different flags have different bits. -/
theorem Flag.bit_lt (f : Flag) : f.bit < 15 := by cases f <;> decide

theorem Flag.bit_injective {f g : Flag} (h : f.bit = g.bit) : f = g := by
  cases f <;> cases g <;> first | rfl | exact absurd h (by decide)

theorem Flag.getLsbD_mask (f : Flag) (i : Nat) : f.mask.getLsbD i = decide (i = f.bit) := by
  have hb := f.bit_lt
  unfold Flag.mask
  by_cases h : i = f.bit
  · subst h
    simp [BitVec.getLsbD_shiftLeft]
    omega
  · by_cases hl : i < f.bit
    · simp [BitVec.getLsbD_shiftLeft, h, hl]
    · have : i - f.bit ≠ 0 := by omega
      simp [BitVec.getLsbD_shiftLeft, h, BitVec.getLsbD_one, this]

/-- Raising a flag sets it and keeps the others. -/
theorem flag_raise (f g : Flag) (s : State) : (raise f s).flag g = (s.flag g || decide (g = f)) := by
  simp only [State.flag, raise, BitVec.getLsbD_or, Flag.getLsbD_mask]
  congr 1
  exact decide_eq_decide.mpr ⟨Flag.bit_injective, fun h => h ▸ rfl⟩

theorem flag_raiseIf (c : Bool) (f g : Flag) (s : State) :
    (raiseIf c f s).flag g = (s.flag g || (c && decide (g = f))) := by
  cases c
  · simp [raiseIf]
  · simp [raiseIf, flag_raise]

/-- Raising a flag that is set changes nothing (R172). -/
theorem raise_of_flag {f : Flag} {s : State} (h : s.flag f = true) : raise f s = s := by
  have hf : s.mgmt.flags ||| f.mask = s.mgmt.flags := by
    apply BitVec.eq_of_getLsbD_eq
    intro i _
    rw [BitVec.getLsbD_or, Flag.getLsbD_mask]
    by_cases hi : i = f.bit
    · subst hi
      rw [State.flag] at h
      simp [h]
    · simp [hi]
  show { s with mgmt := { s.mgmt with flags := s.mgmt.flags ||| f.mask } } = s
  rw [hf]

/-- Different counters have different places. -/
theorem Counter.index_injective {c d : Counter} (h : c.index = d.index) : c = d := by
  cases c <;> cases d <;> first | rfl | exact absurd h (by decide)

/-- Counting adds to one counter, which stops at 65,535, and keeps the others (R175). -/
theorem counter_countBy (n : Nat) (c d : Counter) (s : State) :
    (countBy n c s).counter d = if d = c then min 65535 (s.counter c + n) else s.counter d := by
  split
  · next h => subst h; simp [countBy, State.counter]
  · next h =>
    have hv : c.index.val ≠ d.index.val := fun e => h (Counter.index_injective (Fin.ext e)).symm
    simp [countBy, State.counter, Vector.getElem_set_ne, hv]

@[simp] theorem counter_raise (f : Flag) (c : Counter) (s : State) : (raise f s).counter c = s.counter c := rfl

@[simp] theorem flag_countBy (n : Nat) (c : Counter) (f : Flag) (s : State) :
    (countBy n c s).flag f = s.flag f := rfl

@[simp] theorem sendAll_nil (s : State) : sendAll [] s = s := by simp [sendAll]

theorem sendAll_append (a b : List DriveCmd) (s : State) : sendAll (a ++ b) s = sendAll b (sendAll a s) := by
  simp [sendAll, List.append_assoc]

/-! ### The lists of keys, tracks and boards hold every one -/

theorem mem_allKeys (k : Key) : k ∈ allKeys := by unfold allKeys; exact List.mem_ofFn.mpr ⟨k, rfl⟩

theorem mem_allTracks (t : Track) : t ∈ allTracks := by unfold allTracks; exact List.mem_ofFn.mpr ⟨t, rfl⟩

theorem mem_allBoards (b : Board) : b ∈ allBoards := List.mem_ofFn.mpr ⟨b, rfl⟩

theorem mem_allPedals (p : Pedal) : p ∈ allPedals := by cases p <;> decide

theorem any_allKeys (f : Key → Bool) : allKeys.any f = true ↔ ∃ k, f k = true := by
  rw [List.any_eq_true]
  exact ⟨fun ⟨k, _, h⟩ => ⟨k, h⟩, fun ⟨k, h⟩ => ⟨k, mem_allKeys k, h⟩⟩

theorem all_allKeys (f : Key → Bool) : allKeys.all f = true ↔ ∀ k, f k = true := by
  rw [List.all_eq_true]
  exact ⟨fun h k => h k (mem_allKeys k), fun h k _ => h k⟩

theorem any_allTracks (f : Track → Bool) : allTracks.any f = true ↔ ∃ t, f t = true := by
  rw [List.any_eq_true]
  exact ⟨fun ⟨t, _, h⟩ => ⟨t, h⟩, fun ⟨t, h⟩ => ⟨t, mem_allTracks t, h⟩⟩

end Sys2Proof.Machine
end

