-- ==== Sys2Proof/Laws/Requests.lean ====
section
/-!
SUPPORT. What the wrappers of the commands come to: a request that is taken at once, an event that is due, and what
settling an event does.
-/
namespace Sys2Proof.Machine

/-! ### Settling -/

/-- A settled state is left as it is. -/
theorem settle_of_settled {s : State} (h : s.settled) : settle s = s := by
  have hd : drainCheck s = s := by
    unfold drainCheck
    split
    · next hc =>
      simp only [Bool.and_eq_true, decide_eq_true_eq] at hc
      rw [h.1 hc.1] at hc
      simp at hc
    · rfl
  simp only [settle, hd]
  cases ha : s.anyMismatch
  · rfl
  · exact raise_of_flag (h.2 ha)

/-- Settling depends on the performance state, the queue and the keys; other changes keep a state settled. -/
theorem settled_congr {s t : State} (h : s.settled) (hp : t.perf.state = s.perf.state) (hc : t.sched = s.sched)
    (hk : t.keys = s.keys) (hf : s.flag .touch = true → t.flag .touch = true) : t.settled := by
  have hd : t.drained = s.drained := by unfold State.drained State.key; rw [hc, hk]
  have hm : t.anyMismatch = s.anyMismatch := by unfold State.anyMismatch State.key; rw [hk]
  exact ⟨fun e => by rw [hd]; exact h.1 (hp ▸ e), fun e => hf (h.2 (hm ▸ e))⟩

/-- Outside DRAINING only the mismatches matter. -/
theorem settled_of_state {s : State} (hp : s.perf.state ≠ .draining)
    (hm : s.anyMismatch = true → s.flag .touch = true) : s.settled :=
  ⟨fun e => absurd e hp, hm⟩

/-- The condition of R17: no ROLL record, no entry, no pending strike, every key RESTING or OFFLINE. -/
theorem drained_iff (s : State) : s.drained = true ↔ (∀ r ∈ s.sched.queue, r.tag.origin ≠ .roll) ∧ s.sched.deferral = [] ∧
    ∀ k, (s.key k).pending = none ∧ ((s.key k).phase = .resting ∨ (s.key k).phase = .offline) := by
  unfold State.drained
  simp only [Bool.and_eq_true, List.all_eq_true, List.isEmpty_iff, Bool.or_eq_true, decide_eq_true_eq,
    Option.isNone_iff_eq_none, bne_iff_ne, and_assoc, mem_allKeys, true_implies]

/-- A RESTING key whose observed state is not its snapshot (R163). -/
theorem anyMismatch_iff (s : State) :
    s.anyMismatch = true ↔ ∃ k, (s.key k).phase = .resting ∧ (s.key k).observed ≠ (s.key k).snapshot := by
  unfold State.anyMismatch
  rw [any_allKeys]
  simp [KeyRec.mismatch]

/-! ### Due frames -/

/-- A notice that is due after an event, in terms of the frames. -/
theorem dueNotice_eq (old : BitVec 16) (s : State) : dueNotice (rises old s) s = s.ended old := by
  unfold dueNotice State.ended noticeFor rises pushFrame State.nowDue
  by_cases h : s.mgmt.flags &&& ~~~old &&& s.mgmt.enables = 0#16 <;>
    by_cases g : OutFrame.notice ∈ s.mgmt.outbound <;> simp [h, g]

/-- A response, and the notice behind it, in terms of the frames. -/
theorem respond_eq (old : BitVec 16) (id : Byte) (r : Result) (data : List Byte) (s : State) :
    respond id r data (rises old s) s = s.replied old id r data := by
  unfold respond dueNotice State.replied noticeFor rises pushFrame State.nowDue
  by_cases h : s.mgmt.flags &&& ~~~old &&& s.mgmt.enables = 0#16 <;>
    by_cases g : OutFrame.notice ∈ s.mgmt.outbound <;> simp [h, g]

/-- No flag rises where the flags stand as they were found. -/
theorem noticeFor_same {old : BitVec 16} {s : State} (h : s.mgmt.flags = old) : noticeFor old s = [] := by
  subst h
  have : s.mgmt.flags &&& ~~~s.mgmt.flags = 0 := by
    ext i; simp
  simp [noticeFor, this]

/-- With the flags as they were found, the answer is the response alone. -/
theorem replied_same {old : BitVec 16} {s : State} (h : s.mgmt.flags = old) (id : Byte) (r : Result)
    (data : List Byte) : s.replied old id r data = s.nowDue [.response id r data] := by
  simp [State.replied, noticeFor_same h]

/-- With the flags as they were found, an event's end makes nothing due. -/
theorem ended_same {old : BitVec 16} {s : State} (h : s.mgmt.flags = old) : s.ended old = s := by
  simp [State.ended, noticeFor_same h, State.nowDue]

/-! ### The wrappers -/

/-- A ready state does not hold frames back. -/
theorem inboundWaits_of_ready {s : State} (h : s.ready) : s.inboundWaits = false := by
  simp [State.inboundWaits, h.2.1, h.2.2]

/-- A request that is ready is taken at once. -/
theorem admitRequest_ready {s : State} (h : s.ready) (c : Instr) (take : State → State) :
    admitRequest c take s = take s := by
  have : ¬ 4 ≤ s.responsesDue := Nat.not_le.mpr h.1
  simp [admitRequest, intakeFrame, this, inboundWaits_of_ready h]

/-- A request that is taken: its effect, settled, and its answer. -/
theorem request_ready {s : State} (h : s.ready) (c : Instr) (id : Byte) (effect : State → State × Result) :
    request c id effect s = .next ((settle (effect s).1).replied s.mgmt.flags id (effect s).2) := by
  simp only [request, admitRequest_ready h, answer, respond_eq]

/-- A request whose effect leaves a settled state. -/
theorem request_settled {s : State} (h : s.ready) (c : Instr) (id : Byte) (effect : State → State × Result)
    (hs : (effect s).1.settled) :
    request c id effect s = .next ((effect s).1.replied s.mgmt.flags id (effect s).2) := by
  rw [request_ready h, settle_of_settled hs]

/-- A READ that is taken and finds its data. -/
theorem readRequest_some {s : State} (h : s.ready) (c : Instr) (id : Byte) (effect : State → State)
    (data : State → Option (List Byte)) {bytes : List Byte} (hd : data (settle (effect s)) = some bytes) :
    readRequest c id effect data s = .next ((settle (effect s)).replied s.mgmt.flags id .ok bytes) := by
  simp only [readRequest, admitRequest_ready h, answerRead, hd, respond_eq]

/-- A READ that is INVALID. -/
theorem readRequest_none {s : State} (h : s.ready) (c : Instr) (id : Byte) (effect : State → State)
    (data : State → Option (List Byte)) (hd : data (settle (effect s)) = none) :
    readRequest c id effect data s = .next ((settle s).replied s.mgmt.flags id .invalid) := by
  simp only [readRequest, admitRequest_ready h, answerRead, hd, respond_eq]

/-- A part's own event that is due. -/
theorem timedEvent_due (act : State → State) (s : State) :
    timedEvent true act s = .next ((settle (act s)).ended s.mgmt.flags) := by
  simp only [timedEvent, if_true, finishEvent, dueNotice_eq]

/-- The end of an event that leaves a settled state. -/
theorem finishEvent_settled {s0 s : State} (h : s.settled) : finishEvent s0 s = s.ended s0.mgmt.flags := by
  simp only [finishEvent, settle_of_settled h, dueNotice_eq]

/-- Every request of the Roll Link passes through the backlog check and the wait. -/
theorem exec_request (c : Instr) (h : isRequest c = true) :
    ∃ take : State → State, ∀ s, exec c s = .next (admitRequest c take s) := by
  cases c
  case clear id f => cases f <;> exact ⟨_, fun _ => rfl⟩
  case notices id f => cases f <;> exact ⟨_, fun _ => rfl⟩
  all_goals first
    | exact ⟨_, fun _ => rfl⟩
    | exact Bool.noConfusion h

/-- A failed frame in a settled state. -/
theorem failFrame_settled {s : State} (c : Counter) (h : s.settled) :
    failFrame c s = (raise .linkError (count c s)).ended s.mgmt.flags := by
  refine finishEvent_settled (settled_congr h rfl rfl rfl fun e => ?_)
  rw [flag_raise]
  exact Bool.or_eq_true_iff.mpr (Or.inl e)

end Sys2Proof.Machine
end

