-- ==== Sys2Proof/Laws/Settings.lean ====
section
/-!
SUPPORT. What no event of the music changes: the clocks' counts, the tables, the profile, the enables, the frames that are
due and the links' received bytes. One lemma for each shared operation says that it keeps them.
-/
namespace Sys2Proof.Machine

/-- The part of the state that only requests, time and the links change. -/
structure Settings where
  actionTime  : Nat
  pausedTotal : Nat
  timing      : Vector Nat 9
  detect      : Vector Nat 8
  route       : Vector RouteEntry 112
  inForce     : Vector RouteFn 112
  shading     : Vector Nat 22
  curve       : Vector Nat 256
  voicing     : Vector Int 88
  calib       : Vector CalRec 88
  profile     : Option Profile
  boards      : Board → Bool × Option BoardParams
  globalAdapt : Bool
  adaptParam  : Vector Nat 2
  enables     : BitVec 16
  outbound    : List OutFrame
  fullReset   : FullReset
  waiting     : List Instr
  rollRx      : List Byte
  actionRx    : List Byte
  sentRoll    : List SentFrame
  idleCount   : Nat
  pending     : List Instr

/-- The settings of a state. -/
def State.settings (s : State) : Settings where
  actionTime := s.clock.actionTime
  pausedTotal := s.clock.pausedTotal
  timing := s.clock.timing
  detect := s.reader.detect
  route := s.reader.route
  inForce := s.reader.inForce
  shading := s.expr.shading
  curve := s.expr.curve
  voicing := s.expr.voicing
  calib := s.strike.calib
  profile := s.port.profile
  boards := fun b => ((s.board b).present, (s.board b).params)
  globalAdapt := s.calib.globalAdapt
  adaptParam := s.calib.adaptParam
  enables := s.mgmt.enables
  outbound := s.mgmt.outbound
  fullReset := s.mgmt.fullReset
  waiting := s.mgmt.waiting
  rollRx := s.link.rollRx
  actionRx := s.link.actionRx
  sentRoll := s.link.sentRoll
  idleCount := s.link.idleCount
  pending := s.pending

/-! ### The small updates -/

@[simp] theorem settings_perf (p : PerfControl) (s : State) : State.settings { s with perf := p } = s.settings := rfl

@[simp] theorem settings_intake (i : RollIntake) (s : State) :
    State.settings { s with intake := i } = s.settings := rfl

@[simp] theorem settings_pedals (p : PedalUnit) (s : State) :
    State.settings { s with pedals := p } = s.settings := rfl

@[simp] theorem settings_sched (c : Scheduler) (s : State) : State.settings { s with sched := c } = s.settings := rfl

@[simp] theorem settings_keys (k : Vector KeyRec 88) (s : State) :
    State.settings { s with keys := k } = s.settings := rfl

@[simp] theorem settings_raise (f : Flag) (s : State) : (raise f s).settings = s.settings := rfl

@[simp] theorem settings_raiseIf (c : Bool) (f : Flag) (s : State) : (raiseIf c f s).settings = s.settings := by
  cases c <;> rfl

@[simp] theorem settings_countBy (n : Nat) (c : Counter) (s : State) : (countBy n c s).settings = s.settings := rfl

@[simp] theorem settings_count (c : Counter) (s : State) : (count c s).settings = s.settings := rfl

@[simp] theorem settings_setKey (k : Key) (r : KeyRec) (s : State) : (setKey k r s).settings = s.settings := rfl

@[simp] theorem settings_updateKey (k : Key) (f : KeyRec → KeyRec) (s : State) :
    (updateKey k f s).settings = s.settings := rfl

@[simp] theorem settings_mapKeys (f : Key → KeyRec → KeyRec) (s : State) : (mapKeys f s).settings = s.settings := by
  simp only [mapKeys, settings_keys]

@[simp] theorem settings_updatePedal (p : Pedal) (f : PedalRec → PedalRec) (s : State) :
    (updatePedal p f s).settings = s.settings := by
  cases p <;> rfl

@[simp] theorem settings_sendAll (cmds : List DriveCmd) (s : State) : (sendAll cmds s).settings = s.settings := rfl

@[simp] theorem settings_sendKey (k : Key) (a : DriveAction) (s : State) : (sendKey k a s).settings = s.settings := rfl

@[simp] theorem settings_sendPedal (p : Pedal) (a : DriveAction) (s : State) :
    (sendPedal p a s).settings = s.settings := rfl

@[simp] theorem settings_setProbe (p : ProbeRec) (s : State) : (setProbe p s).settings = s.settings := rfl

@[simp] theorem settings_removeEntry (k : Key) (s : State) : (removeEntry k s).settings = s.settings := rfl

@[simp] theorem settings_setOwedCount (n : Nat) (s : State) : (setOwedCount n s).settings = s.settings := rfl

@[simp] theorem settings_stopWith (r : StopReason) (s : State) : (stopWith r s).settings = s.settings := rfl

@[simp] theorem settings_startLossTimer (s : State) : (startLossTimer s).settings = s.settings := rfl

@[simp] theorem settings_recordLine (n t : Nat) (s : State) : (recordLine n t s).settings = s.settings := rfl

@[simp] theorem settings_noteStrike (k : Key) (v : StrikeVals) (t : Tag) (f : Nat) (s : State) :
    (noteStrike k v t f s).settings = s.settings := rfl

@[simp] theorem settings_setPausePoint (t : Nat) (s : State) : (setPausePoint t s).settings = s.settings := by
  unfold setPausePoint; split <;> rfl

@[simp] theorem settings_completeSwitch (s : State) : (completeSwitch s).settings = s.settings := by
  unfold completeSwitch; split <;> rfl

@[simp] theorem settings_setLoop (l : LoopRec) (s : State) : (setLoop l s).settings = s.settings := by
  unfold setLoop; rw [settings_raiseIf]; rfl

@[simp] theorem settings_reacquire (t : Treatment) (s : State) : (reacquire t s).settings = s.settings := by
  unfold reacquire; split <;> simp

/-- A board update that keeps present and parameters keeps the settings. -/
theorem settings_updateBoard (b : Board) (f : BoardRec → BoardRec) (s : State)
    (h : ∀ r, (f r).present = r.present ∧ (f r).params = r.params) : (updateBoard b f s).settings = s.settings := by
  have hb : ∀ c, ((updateBoard b f s).board c).present = (s.board c).present ∧
      ((updateBoard b f s).board c).params = (s.board c).params := by
    intro c
    rw [board_updateBoard]
    split
    · next e => subst e; exact h _
    · exact ⟨rfl, rfl⟩
  have hf : (fun c => (((updateBoard b f s).board c).present, ((updateBoard b f s).board c).params)) =
      fun c => ((s.board c).present, (s.board c).params) :=
    funext fun c => by rw [(hb c).1, (hb c).2]
  have hs : (updateBoard b f s).settings =
      { s.settings with
        boards := fun c => (((updateBoard b f s).board c).present, ((updateBoard b f s).board c).params) } := rfl
  rw [hs, hf]
  rfl

/-! ### Pedals -/

@[simp] theorem settings_drivePedal (p : Pedal) (s : State) : (drivePedal p s).settings = s.settings := by
  unfold drivePedal pressPedal liftPedal
  split
  · rfl
  · split <;> split <;> simp

@[simp] theorem settings_changePedal (p : Pedal) (f : PedalRec → PedalRec) (s : State) :
    (changePedal p f s).settings = s.settings := by
  simp [changePedal]

@[simp] theorem settings_changePedals (f : PedalRec → PedalRec) (s : State) :
    (changePedals f s).settings = s.settings := by
  simp [changePedals]

@[simp] theorem settings_takePedalDown (p : Pedal) (t : Tag) (s : State) :
    (takePedalDown p t s).settings = s.settings := by
  simp [takePedalDown]

@[simp] theorem settings_takePedalUp (p : Pedal) (t : Tag) (s : State) :
    (takePedalUp p t s).settings = s.settings := by
  unfold takePedalUp; split <;> simp

@[simp] theorem settings_endEngage (p : Pedal) (s : State) : (endEngage p s).settings = s.settings := by
  unfold endEngage; split <;> simp

/-! ### Keys, the budget and the Deferral List -/

@[simp] theorem settings_finishProbe (f : ProbeRec → ProbeRec) (s : State) :
    (finishProbe f s).settings = s.settings := by
  unfold finishProbe
  split
  · split <;> simp
  · rfl

@[simp] theorem settings_abandonProbe (c : EndCause) (s : State) : (abandonProbe c s).settings = s.settings := by
  simp [abandonProbe]

@[simp] theorem settings_endProbe (t : Option Tag) (c : EndCause) (s : State) :
    (endProbe t c s).settings = s.settings := by
  unfold endProbe; split <;> simp

@[simp] theorem settings_letGo (k : Key) (s : State) : (letGo k s).settings = s.settings := by simp [letGo]

@[simp] theorem settings_freeze (c : Bool) (k : Key) (s : State) : (freeze c k s).settings = s.settings := by
  unfold freeze; split <;> simp

@[simp] theorem settings_missStrike (k : Key) (s : State) : (missStrike k s).settings = s.settings := by
  simp [missStrike]

@[simp] theorem settings_restRecord (k : Key) (s : State) : (restRecord k s).settings = s.settings := by
  unfold restRecord
  dsimp only
  split
  · split
    · split
      · simp
      · split <;> simp
    · rfl
  · simp
  · rfl

@[simp] theorem settings_restNotice (k : Key) (s : State) : (restNotice k s).settings = s.settings := by
  simp [restNotice]

@[simp] theorem settings_takeSlot (k : Key) (s : State) : (takeSlot k s).settings = s.settings := by
  unfold takeSlot
  split
  · exact (settings_updateBoard _ _ _ (by intro r; exact ⟨rfl, rfl⟩)).trans rfl
  · rfl

@[simp] theorem settings_dropSlot (k : Key) (s : State) : (dropSlot k s).settings = s.settings := by
  unfold dropSlot
  split
  · exact (settings_updateBoard _ _ _ (by intro r; exact ⟨rfl, rfl⟩)).trans rfl
  · rfl

@[simp] theorem settings_pulseKey (k : Key) (st : Strike) (s : State) : (pulseKey k st s).settings = s.settings := by
  simp [pulseKey]

@[simp] theorem settings_joinDeferral (k : Key) (st : Strike) (s : State) :
    (joinDeferral k st s).settings = s.settings := by
  simp [joinDeferral]

@[simp] theorem settings_countLate (st : Strike) (s : State) : (countLate st s).settings = s.settings := by
  simp [countLate]

@[simp] theorem settings_offer (c : Bool) (k : Key) (st : Strike) (s : State) :
    (offer c k st s).settings = s.settings := by
  unfold offer
  split
  · simp
  · split <;> simp

@[simp] theorem settings_dropEntry (e : DeferralEntry) (s : State) : (dropEntry e s).settings = s.settings := by
  unfold dropEntry
  dsimp only
  split <;> simp

@[simp] theorem settings_arbitrate (n : Nat) (s : State) : (arbitrate n s).settings = s.settings := by
  induction n generalizing s with
  | zero => rfl
  | succ n ih =>
    unfold arbitrate
    split
    · split
      · rfl
      · split <;> simp [ih]
    · rfl

@[simp] theorem settings_runArbiter (s : State) : (runArbiter s).settings = s.settings := by simp [runArbiter]

@[simp] theorem settings_arbiterUnlessPaused (s : State) : (arbiterUnlessPaused s).settings = s.settings := by
  unfold arbiterUnlessPaused; split <;> simp

@[simp] theorem settings_keyRests (k : Key) (s : State) : (keyRests k s).settings = s.settings := by
  unfold keyRests
  dsimp only
  split
  · split <;> simp
  · simp

@[simp] theorem settings_park (k : Key) (st : Strike) (s : State) : (park k st s).settings = s.settings := by
  unfold park; split <;> simp

@[simp] theorem settings_strikeReaches (k : Key) (st : Strike) (s : State) :
    (strikeReaches k st s).settings = s.settings := by
  unfold strikeReaches; split <;> simp

@[simp] theorem settings_releaseReaches (k : Key) (t : Tag) (s : State) :
    (releaseReaches k t s).settings = s.settings := by
  unfold releaseReaches markEntry markPending
  dsimp only
  split
  · simp
  · split
    · simp
    · split
      · simp
      · split <;> simp

/-! ### The Fire Queue -/

@[simp] theorem settings_handRecord (r : FireRecord) (s : State) : (handRecord r s).settings = s.settings := by
  unfold handRecord; split <;> simp

@[simp] theorem settings_dispatchHead (s : State) : (dispatchHead s).settings = s.settings := by
  unfold dispatchHead; split <;> simp

@[simp] theorem settings_dispatchFirst (n : Nat) (s : State) : (dispatchFirst n s).settings = s.settings := by
  induction n generalizing s with
  | zero => rfl
  | succ n ih => simp [dispatchFirst, ih]

@[simp] theorem settings_enqueue (r : FireRecord) (s : State) : (enqueue r s).settings = s.settings := by
  unfold enqueue
  dsimp only
  split <;> simp

@[simp] theorem settings_setOwed (k : FireKind) (t : Option Tag) (s : State) :
    (setOwed k t s).settings = s.settings := by
  unfold setOwed; split <;> simp

@[simp] theorem settings_setRefused (k : FireKind) (t : Option Tag) (s : State) :
    (setRefused k t s).settings = s.settings := by
  unfold setRefused; split <;> simp

@[simp] theorem settings_admitOnset (r : FireRecord) (s : State) : (admitOnset r s).settings = s.settings := by
  unfold admitOnset; split <;> simp

@[simp] theorem settings_admitRelease (r : FireRecord) (s : State) : (admitRelease r s).settings = s.settings := by
  unfold admitRelease
  split
  · simp
  · split <;> simp

/-! ### Across the blocks -/

@[simp] theorem settings_emptyScheduler (s : State) : (emptyScheduler s).settings = s.settings := by
  have hb : ∀ b, (emptyScheduler s).board b = { s.board b with inFlight := 0 } := by
    intro b; simp [emptyScheduler, State.board]
  have hf : (fun b => (((emptyScheduler s).board b).present, ((emptyScheduler s).board b).params)) =
      fun b => ((s.board b).present, (s.board b).params) := funext fun b => by rw [hb]
  have hs : (emptyScheduler s).settings =
      { s.settings with
        boards := fun b => (((emptyScheduler s).board b).present, ((emptyScheduler s).board b).params) } := rfl
  rw [hs, hf]
  rfl

@[simp] theorem settings_cut (s : State) : (cut s).settings = s.settings := by
  unfold cut; dsimp only; rw [settings_perf]; simp

@[simp] theorem settings_enterPaused (s : State) : (enterPaused s).settings = s.settings := by
  unfold enterPaused; dsimp only; rw [settings_raise, settings_perf]; simp

@[simp] theorem settings_endDraining (s : State) : (endDraining s).settings = s.settings := by simp [endDraining]

@[simp] theorem settings_drainCheck (s : State) : (drainCheck s).settings = s.settings := by
  unfold drainCheck; split <;> simp

@[simp] theorem settings_settle (s : State) : (settle s).settings = s.settings := by simp [settle]

@[simp] theorem settings_disableKeys (b : Board) (s : State) : (disableKeys b s).settings = s.settings := by
  unfold disableKeys endRemovedProbes
  dsimp only
  rw [settings_mapKeys, settings_sched, settings_countBy]
  split <;> simp

@[simp] theorem settings_disablePedals (b : Board) (s : State) : (disablePedals b s).settings = s.settings := by
  unfold disablePedals
  dsimp only
  split <;> split <;> simp

@[simp] theorem settings_freeBoard (b : Board) (s : State) : (freeBoard b s).settings = s.settings := by
  unfold freeBoard
  exact (settings_updateBoard _ _ _ (by intro r; exact ⟨rfl, rfl⟩)).trans rfl

@[simp] theorem settings_disableBoard (b : Board) (r : DisableReason) (f : Option FaultReason) (s : State) :
    (disableBoard b r f s).settings = s.settings := by
  simp [disableBoard, settings_updateBoard]

@[simp] theorem settings_enableKeys (b : Board) (s : State) : (enableKeys b s).settings = s.settings := by
  simp [enableKeys]

@[simp] theorem settings_driveBoardPedals (b : Board) (s : State) :
    (driveBoardPedals b s).settings = s.settings := by
  unfold driveBoardPedals
  dsimp only
  split <;> split <;> simp

@[simp] theorem settings_enableBoard (b : Board) (s : State) : (enableBoard b s).settings = s.settings := by
  simp [enableBoard, settings_updateBoard]

/-! ### An accepted line -/

/-- Folding operations that keep the settings keeps them. -/
theorem settings_foldl {α : Type} (f : State → α → State) (h : ∀ s a, (f s a).settings = s.settings) (l : List α)
    (s : State) : (l.foldl f s).settings = s.settings := by
  induction l generalizing s with
  | nil => rfl
  | cons a l ih => simp [ih, h]

@[simp] theorem settings_switchAt (t : Nat) (l : LoopRec) (s : State) : (switchAt t l s).settings = s.settings := by
  unfold switchAt
  split
  · simp
  · exact (settings_setLoop _ _ : (setLoop { l with tLoop := t } s).settings = _)
  · exact (settings_setLoop _ _ : (setLoop l s).settings = _)

@[simp] theorem settings_stampLine (n : Nat) (s : State) : (stampLine n s).settings = s.settings := by
  unfold stampLine
  split
  · simp
  · simp
  · dsimp only
    split <;> simp

@[simp] theorem settings_checkCues (n : Nat) (s : State) : (checkCues n s).settings = s.settings := by
  unfold checkCues; split <;> simp

@[simp] theorem settings_performLine (n : Nat) (s : State) : (performLine n s).settings = s.settings := by
  simp [performLine]

@[simp] theorem settings_alignLine (c : Vector Byte 128) (s : State) : (alignLine c s).settings = s.settings := by
  have ha : ∀ (r : TrackReader) h m, (r.aligned h m).detect = r.detect ∧ (r.aligned h m).route = r.route ∧
      (r.aligned h m).inForce = r.inForce := by
    intro r h m
    unfold TrackReader.aligned
    split
    · split <;> exact ⟨rfl, rfl, rfl⟩
    · split
      · split <;> exact ⟨rfl, rfl, rfl⟩
      · exact ⟨rfl, rfl, rfl⟩
  unfold alignLine
  split
  · split
    · rfl
    · dsimp only
      rw [settings_raiseIf]
      simp only [State.settings, ha]
      rfl
  · rfl

@[simp] theorem settings_setDetectors (v : Vector TrackStep 112) (s : State) :
    (setDetectors v s).settings = s.settings := by
  unfold setDetectors
  generalize (Vector.ofFn fun t => v[t].det) = d
  rfl

@[simp] theorem settings_stepRegulators (s : State) : (stepRegulators s).settings = s.settings := rfl

@[simp] theorem settings_handClosing (f : RouteFn) (l o : Nat) (s : State) :
    (handClosing f l o s).settings = s.settings := by
  unfold handClosing requestRelease requestPedalUp; split <;> simp

@[simp] theorem settings_handOpening (f : RouteFn) (l : Nat) (s : State) :
    (handOpening f l s).settings = s.settings := by
  unfold handOpening requestStrike requestPedalDown; split <;> simp

@[simp] theorem settings_handClosings (v : Vector TrackStep 112) (s : State) :
    (handClosings v s).settings = s.settings :=
  settings_foldl _ (fun s t => by split <;> simp) _ s

@[simp] theorem settings_handOpenings (v : Vector TrackStep 112) (s : State) :
    (handOpenings v s).settings = s.settings :=
  settings_foldl _ (fun s t => by split <;> simp) _ s

@[simp] theorem settings_cueOnset (m : Nat) (s : State) : (cueOnset m s).settings = s.settings := by
  unfold cueOnset
  dsimp only
  split
  · rw [settings_setPausePoint, settings_raise]; rfl
  · rfl

@[simp] theorem settings_handCues (v : Vector TrackStep 112) (s : State) : (handCues v s).settings = s.settings :=
  settings_foldl _ (fun s t => by split <;> simp) _ s

/-- New detectors keep the settings. -/
theorem settings_detectors (d : Vector Detector 112) (s : State) :
    State.settings { s with reader := { s.reader with detectors := d } } = s.settings := rfl

@[simp] theorem settings_endOnset (e : Nat) (s : State) : (endOnset e s).settings = s.settings := by
  unfold endOnset
  dsimp only
  rw [settings_raise, settings_perf, settings_foldl]
  · exact settings_detectors _ s
  · intro s t
    split <;> simp

@[simp] theorem settings_handEnd (v : Vector TrackStep 112) (s : State) : (handEnd v s).settings = s.settings := by
  unfold handEnd; split <;> simp

@[simp] theorem settings_readLine (n : Nat) (c : Vector Byte 128) (s : State) :
    (readLine n c s).settings = s.settings := by
  simp [readLine]

@[simp] theorem settings_acceptLine (n : Nat) (c : Vector Byte 128) (s : State) :
    (acceptLine n c s).settings = s.settings := by
  unfold acceptLine reachPause; split <;> simp

@[simp] theorem settings_offerLine (n : Nat) (c : Vector Byte 128) (s : State) :
    (offerLine n c s).settings = s.settings := by
  unfold offerLine
  split
  · simp
  · simp
  · split <;> simp
  · simp
  · simp

/-! ### The parts' own events -/

@[simp] theorem settings_afterPulse (k : Key) (s : State) : (afterPulse k s).settings = s.settings := by
  unfold afterPulse; split <;> simp

@[simp] theorem settings_endPulse (k : Key) (s : State) : (endPulse k s).settings = s.settings := by simp [endPulse]

@[simp] theorem settings_recordReturn (k : Key) (t : TimerKind) (s : State) :
    (recordReturn k t s).settings = s.settings := by
  unfold recordReturn; split <;> simp

@[simp] theorem settings_endReturn (k : Key) (s : State) : (endReturn k s).settings = s.settings := by
  unfold endReturn; split <;> simp

@[simp] theorem settings_loseSource (s : State) : (loseSource s).settings = s.settings := by
  unfold loseSource
  dsimp only
  rw [settings_raise, settings_raise, settings_reacquire]
  exact (settings_stopWith _ _).trans (settings_cut s)

@[simp] theorem settings_takeStrikeReport (k : Key) (m : Nat) (s : State) :
    (takeStrikeReport k m s).settings = s.settings := by
  have hm : ∀ s, (takeMeasurement k m s).settings = s.settings := by
    intro s
    unfold takeMeasurement takeOutlier takeError
    dsimp only
    split <;> split <;> simp
  have ho : ∀ s, (observeStrike k s).settings = s.settings := by
    intro s
    unfold observeStrike
    split
    · split <;> simp
    all_goals simp
  unfold takeStrikeReport
  dsimp only
  rw [ho]
  split
  all_goals first
    | rfl
    | (split
       · split
         · simp
         · exact hm s
       · rfl)

@[simp] theorem settings_takeRestReport (k : Key) (s : State) : (takeRestReport k s).settings = s.settings := by
  unfold takeRestReport; split <;> simp

@[simp] theorem settings_takeFault (b : Board) (r : FaultReason) (s : State) :
    (takeFault b r s).settings = s.settings := by
  unfold takeFault
  split <;> simp [settings_updateBoard]

end Sys2Proof.Machine
end

