-- ==== Sys2Proof/Laws/Keys.lean ====
section
/-!
SUPPORT. What the operations on keys and probes come to, and what the offers, rests and the arbiter leave alone.
-/
namespace Sys2Proof.Machine

/-! ### Equations -/

theorem settled_same {s t : State} (h : s.settled) (h1 : t.perf.state = s.perf.state) (h2 : t.sched = s.sched)
    (h3 : t.keys = s.keys) (h4 : t.mgmt.flags = s.mgmt.flags) : t.settled :=
  settled_congr h h1 h2 h3 (by intro e; unfold State.flag at *; rw [h4]; exact e)

theorem finishProbe_eq (f : ProbeRec → ProbeRec) (s : State) :
    finishProbe f s = { s with
      calib := { s.calib with probe := s.calib.probe.map fun p => if p.busy then f { p with busy := false } else p }
      mgmt := { s.mgmt with flags := if s.probeBusy then s.mgmt.flags ||| Flag.probeDone.mask else s.mgmt.flags } } := by
  obtain ⟨_, _, _, _, _, _, _, _, _, _, calib, _, _, _⟩ := s
  obtain ⟨_, _, _, probe⟩ := calib
  cases probe with
  | none => rfl
  | some p =>
    unfold finishProbe State.probeBusy
    cases hb : p.busy <;> simp [hb, raise, setProbe]

theorem endProbe_eq (t : Option Tag) (c : EndCause) (s : State) :
    endProbe t c s = if s.isBusyProbe t then raise .probeDone { s with calib := { s.calib with probe := s.calib.probe.map fun p =>
            { p with busy := false, result := some .none, endCause := some c } } } else s := by
  unfold endProbe
  split
  · next h =>
    unfold abandonProbe finishProbe setProbe
    unfold State.isBusyProbe at h
    cases hp : s.calib.probe with
    | none => simp [hp] at h
    | some p =>
      simp [hp] at h
      simp [h.1]
  · rfl

theorem insertEntry_eq (e : DeferralEntry) (q : List DeferralEntry) :
    insertEntry e q = q.takeWhile (·.strike.fire ≤ e.strike.fire) ++ e :: q.dropWhile (·.strike.fire ≤ e.strike.fire) := by
  induction q with
  | nil => rfl
  | cons x xs ih =>
    by_cases h : x.strike.fire ≤ e.strike.fire <;> simp [insertEntry, h, ih]

theorem insertRecord_eq (r : FireRecord) (q : List FireRecord) :
    insertRecord r q = q.takeWhile (·.fire ≤ r.fire) ++ r :: q.dropWhile (·.fire ≤ r.fire) := by
  induction q with
  | nil => rfl
  | cons x xs ih =>
    by_cases h : x.fire ≤ r.fire <;> simp [insertRecord, h, ih]

theorem insertCue_eq (n : Nat) (l : List Nat) : insertCue n l = l.takeWhile (· < n) ++ n :: l.dropWhile (· < n) := by
  induction l with
  | nil => rfl
  | cons x xs ih =>
    unfold insertCue
    by_cases h : x < n <;> simp [h, ih]

theorem anyMismatch_of_keys {s t : State} (h : ∀ k, (t.key k).mismatch = true → (s.key k).mismatch = true) : t.anyMismatch = true → s.anyMismatch = true := by
  unfold State.anyMismatch; rw [any_allKeys, any_allKeys]
  rintro ⟨k, hk⟩; exact ⟨k, h k hk⟩

/-! ### Calm operations -/

/-- What the arbiter, the offers and the rests leave alone: no key comes into mismatch, no flag falls, and Performance
Control stays as it is. So a settled state stays settled. -/
structure Calm (s t : State) : Prop where
  mismatch : ∀ k, (t.key k).mismatch = true → (s.key k).mismatch = true
  flag : ∀ f, s.flag f = true → t.flag f = true
  perf : t.perf = s.perf

theorem Calm.refl (s : State) : Calm s s := ⟨fun _ h => h, fun _ h => h, rfl⟩
theorem Calm.trans {a b c : State} (h : Calm a b) (g : Calm b c) : Calm a c :=
  ⟨fun k x => h.mismatch k (g.mismatch k x), fun f x => g.flag f (h.flag f x), g.perf.trans h.perf⟩
theorem Calm.of_eq {s t : State} (h1 : t.keys = s.keys) (h2 : ∀ f, s.flag f = true → t.flag f = true) (h3 : t.perf = s.perf) : Calm s t :=
  ⟨fun k x => by unfold State.key at *; rw [h1] at x; exact x, h2, h3⟩
theorem Calm.upd (k : Key) (f : KeyRec → KeyRec) (s : State) (h : (f (s.key k)).mismatch = true → (s.key k).mismatch = true) :
    Calm s (updateKey k f s) := by
  refine ⟨fun j x => ?_, fun _ x => x, rfl⟩
  rw [key_updateKey] at x
  split at x
  · next e => subst e; exact h x
  · exact x
theorem Calm.raise (f : Flag) (s : State) : Calm s (raise f s) := ⟨fun _ x => x, fun g x => by rw [flag_raise, x]; rfl, rfl⟩
theorem Calm.count (c : Counter) (s : State) : Calm s (count c s) := Calm.of_eq rfl (fun _ x => x) rfl
theorem Calm.sendAll (l) (s : State) : Calm s (sendAll l s) := Calm.of_eq rfl (fun _ x => x) rfl
theorem Calm.takeSlot (k) (s : State) : Calm s (takeSlot k s) := by
  unfold Machine.takeSlot; split
  · exact Calm.of_eq rfl (fun _ x => x) rfl
  · exact Calm.refl _
theorem Calm.dropSlot (k) (s : State) : Calm s (dropSlot k s) := by
  unfold Machine.dropSlot; split
  · exact Calm.of_eq rfl (fun _ x => x) rfl
  · exact Calm.refl _
theorem Calm.finishProbe (f) (s : State) : Calm s (finishProbe f s) := by
  rw [finishProbe_eq]
  refine Calm.of_eq rfl (fun g x => ?_) rfl
  unfold State.flag at *
  dsimp only
  split
  · simp [x]
  · exact x
theorem Calm.endProbe (t c) (s : State) : Calm s (endProbe t c s) := by
  unfold Machine.endProbe; split
  · exact Calm.finishProbe _ _
  · exact Calm.refl _
theorem Calm.pulseKey (k st) (s : State) : Calm s (pulseKey k st s) := by
  unfold Machine.pulseKey
  refine ((Calm.takeSlot k s).trans (Calm.sendAll _ _)).trans (Calm.upd _ _ _ ?_)
  intro h; simp [KeyRec.striking, KeyRec.mismatch] at h
theorem Calm.joinDeferral (k st) (s : State) : Calm s (joinDeferral k st s) := by
  unfold Machine.joinDeferral
  refine Calm.trans (b := { s with sched := { s.sched with deferral := insertEntry ⟨k, st⟩ s.sched.deferral } }) (Calm.of_eq rfl (fun _ x => x) rfl) (Calm.upd _ _ _ ?_)
  intro h; simp [KeyRec.mismatch] at h
theorem Calm.freeze (c k) (s : State) : Calm s (freeze c k s) := by
  unfold Machine.freeze; split
  · refine (Calm.upd _ _ _ ?_).trans (Calm.raise _ _)
    intro h; simpa [KeyRec.mismatch] using h
  · exact Calm.refl _
theorem Calm.missStrike (k) (s : State) : Calm s (missStrike k s) := by
  unfold Machine.missStrike
  refine ((Calm.count _ _).trans (Calm.upd _ _ _ ?_)).trans (Calm.freeze _ _ _)
  intro h; simpa [KeyRec.mismatch] using h
theorem Calm.restRecord (k) (s : State) : Calm s (restRecord k s) := by
  unfold Machine.restRecord
  dsimp only
  split
  · split
    · split
      · refine Calm.upd _ _ _ ?_
        intro h; simpa [KeyRec.mismatch] using h
      · split
        · exact Calm.refl _
        · exact Calm.missStrike _ _
    · exact Calm.refl _
  · exact Calm.endProbe _ _ _
  · exact Calm.refl _
theorem noticed_mismatch (r : KeyRec) : r.noticed.mismatch = false := by
  unfold KeyRec.noticed KeyRec.mismatch
  cases r.pulseSent <;> simp
theorem Calm.restNotice (k) (s : State) : Calm s (restNotice k s) := by
  unfold Machine.restNotice
  refine ⟨fun j h => ?_, fun f h => ?_, ?_⟩
  · rw [key_updateKey] at h
    split at h
    · rw [noticed_mismatch] at h; cases h
    · next e =>
      have := (Calm.restRecord k _).mismatch j h
      rw [key_updateKey, if_neg e] at this
      exact this
  · exact (Calm.restRecord k _).flag f h
  · exact (Calm.restRecord k _).perf
theorem Calm.countLate (st) (s : State) : Calm s (countLate st s) :=
  ((Calm.count _ _).trans (Calm.raise _ _)).trans (Calm.endProbe _ _ _)
theorem Calm.offer (c k st) (s : State) : Calm s (offer c k st s) := by
  unfold Machine.offer
  split
  · exact Calm.countLate _ _
  · split
    · exact Calm.pulseKey _ _ _
    · exact Calm.joinDeferral _ _ _
theorem Calm.removeEntry (k) (s : State) : Calm s (removeEntry k s) := Calm.of_eq rfl (fun _ x => x) rfl
theorem Calm.dropPending (k) (s : State) : Calm s (updateKey k (fun r => { r with pending := none }) s) := by
  refine Calm.upd _ _ _ ?_
  intro h; simpa [KeyRec.mismatch] using h
theorem Calm.dropEntry (e) (s : State) : Calm s (dropEntry e s) := by
  unfold Machine.dropEntry
  have h0 : Calm s (Machine.restNotice e.key (Machine.countLate e.strike (Machine.removeEntry e.key s))) :=
    ((Calm.removeEntry _ _).trans (Calm.countLate _ _)).trans (Calm.restNotice _ _)
  dsimp only
  split
  · exact (h0.trans (Calm.dropPending _ _)).trans (Calm.joinDeferral _ _ _)
  · exact h0
theorem Calm.arbitrate (n) (s : State) : Calm s (arbitrate n s) := by
  induction n generalizing s with
  | zero => exact Calm.refl _
  | succ n ih =>
    unfold Machine.arbitrate
    split
    · split
      · exact Calm.refl _
      · split
        · exact (Calm.dropEntry _ _).trans (ih _)
        · exact ((Calm.removeEntry _ _).trans (Calm.pulseKey _ _ _)).trans (ih _)
    · exact Calm.refl _
theorem Calm.runArbiter (s : State) : Calm s (runArbiter s) := Calm.arbitrate _ _
theorem Calm.foldl {α} (f : State → α → State) (h : ∀ s a, Calm s (f s a)) (l : List α) (s : State) : Calm s (l.foldl f s) := by
  induction l generalizing s with
  | nil => exact Calm.refl _
  | cons a l ih => exact (h s a).trans (ih _)
theorem Calm.joinPending (s : State) : Calm s (joinPending s) := by
  unfold Machine.joinPending
  refine Calm.foldl _ (fun s k => ?_) _ s
  split
  · exact (Calm.dropPending _ _).trans (Calm.joinDeferral _ _ _)
  · exact Calm.refl _

theorem Calm.settled {s t : State} (q : Calm s t) (hp : t.perf.state ≠ .draining) (h : s.anyMismatch = true → s.flag .touch = true) : t.settled :=
  settled_of_state hp fun e => q.flag _ (h (anyMismatch_of_keys q.mismatch e))

end Sys2Proof.Machine
end

