-- ==== Sys2Proof/Laws/Arbiter.lean ====
section
/-!
SUPPORT. The slot arbiter (R112): it makes passes until one finds nothing to do.
-/
namespace Sys2Proof.Machine

theorem key_setKey (s : State) (k j : Key) (r : KeyRec) : (setKey k r s).key j = if j = k then r else s.key j := by
  by_cases h : j = k
  · subst h; simp
  · rw [key_setKey_ne h, if_neg h]

/-- How many keys hold a pending strike. -/
def pendingCount (s : State) : Nat := (allKeys.filter fun k => (s.key k).pending.isSome).length
/-- What every pass of the arbiter makes smaller. -/
def arbiterWork (s : State) : Nat := s.sched.deferral.length + pendingCount s

theorem pendingCount_congr {s t : State} (h : ∀ k, (t.key k).pending = (s.key k).pending) : pendingCount t = pendingCount s := by
  unfold pendingCount; congr 1; apply List.filter_congr; intro k _; rw [h]

theorem allKeys_nodup : allKeys.Nodup := by
  unfold allKeys; simp

theorem pendingCount_clear {s t : State} (k : Key) (h : ∀ j, j ≠ k → (t.key j).pending = (s.key j).pending)
    (hs : (s.key k).pending.isSome = true) (ht : (t.key k).pending = none) : pendingCount t + 1 ≤ pendingCount s := by
  unfold pendingCount
  have : (allKeys.filter fun j => (s.key j).pending.isSome).Perm (k :: allKeys.filter fun j => (t.key j).pending.isSome) := by
    refine (List.perm_ext_iff_of_nodup (allKeys_nodup.filter _) (List.nodup_cons.mpr ⟨?_, allKeys_nodup.filter _⟩)).mpr ?_
    · simp [ht]
    · intro j
      by_cases hj : j = k
      · subst hj; simp [hs, mem_allKeys]
      · simp [hj, mem_allKeys, h j hj]
  rw [this.length_eq]; simp

theorem pendingCount_le (s : State) : pendingCount s ≤ 88 := by
  unfold pendingCount
  refine le_trans (List.length_filter_le _ _) ?_
  unfold allKeys; simp

theorem pending_updateKey (s : State) (k : Key) (f : KeyRec → KeyRec) (h : (f (s.key k)).pending = (s.key k).pending) (j : Key) :
    ((updateKey k f s).key j).pending = (s.key j).pending := by
  unfold updateKey; rw [key_setKey]; split
  · next e => subst e; exact h
  · rfl

/-- The Scheduler and every pending strike stay as they are. -/
structure KeepsPending (s t : State) : Prop where
  sched : t.sched = s.sched
  pend : ∀ k, (t.key k).pending = (s.key k).pending
theorem KeepsPending.refl (s : State) : KeepsPending s s := ⟨rfl, fun _ => rfl⟩
theorem KeepsPending.trans {a b c : State} (h : KeepsPending a b) (g : KeepsPending b c) : KeepsPending a c := ⟨g.1.trans h.1, fun k => (g.2 k).trans (h.2 k)⟩
theorem KeepsPending.of_eq {s t : State} (h : t.sched = s.sched) (g : t.keys = s.keys) : KeepsPending s t := ⟨h, fun k => by unfold State.key; rw [g]⟩
theorem KeepsPending.upd {s : State} (k f) (h : (f (s.key k)).pending = (s.key k).pending) : KeepsPending s (updateKey k f s) := ⟨rfl, pending_updateKey s k f h⟩

theorem KeepsPending.raise (f) (s : State) : KeepsPending s (raise f s) := KeepsPending.of_eq rfl rfl
theorem KeepsPending.count (c) (s : State) : KeepsPending s (count c s) := KeepsPending.of_eq rfl rfl
theorem finishProbe_keepsPending (f) (s : State) : KeepsPending s (finishProbe f s) := by
  unfold finishProbe; split
  · split <;> exact KeepsPending.of_eq rfl rfl
  · exact KeepsPending.refl _
theorem endProbe_keepsPending (t c) (s : State) : KeepsPending s (endProbe t c s) := by
  unfold endProbe; split
  · exact finishProbe_keepsPending _ _
  · exact KeepsPending.refl _
theorem countLate_keepsPending (st) (s : State) : KeepsPending s (countLate st s) := ((KeepsPending.count _ s).trans (KeepsPending.raise _ _)).trans (endProbe_keepsPending _ _ _)
theorem restRecord_keepsPending (k) (s : State) : KeepsPending s (restRecord k s) := by
  simp only [restRecord]
  split
  · split
    · split
      · exact KeepsPending.upd _ _ rfl
      · split
        · exact KeepsPending.refl _
        · simp only [missStrike, freeze]
          split
          · exact ((KeepsPending.count _ s).trans (KeepsPending.upd _ _ rfl)).trans ((KeepsPending.upd _ _ rfl).trans (KeepsPending.raise _ _))
          · exact (KeepsPending.count _ s).trans (KeepsPending.upd _ _ rfl)
    · exact KeepsPending.refl _
  · exact endProbe_keepsPending _ _ _
  · exact KeepsPending.refl _
theorem restNotice_keepsPending (k) (s : State) : KeepsPending s (restNotice k s) :=
  ((KeepsPending.upd _ _ rfl).trans (restRecord_keepsPending _ _)).trans (KeepsPending.upd _ _ rfl)

theorem insertEntry_length (e : DeferralEntry) (q) : (insertEntry e q).length = q.length + 1 := by
  induction q with
  | nil => rfl
  | cons x xs ih => simp only [insertEntry]; split <;> simp [ih]

theorem dropEntry_arbiterWork {e : DeferralEntry} {s : State} (h : e ∈ s.sched.deferral) : arbiterWork (dropEntry e s) + 1 ≤ arbiterWork s := by
  have hr : (removeEntry e.key s).sched.deferral.length + 1 = s.sched.deferral.length := by
    unfold removeEntry
    have := List.length_eraseP_of_mem h (p := (·.key == e.key)) (by simp)
    have hp : 0 < s.sched.deferral.length := List.length_pos_of_mem h
    simp only [this]; omega
  have hpk : KeepsPending (removeEntry e.key s) (restNotice e.key (countLate e.strike (removeEntry e.key s))) :=
    (countLate_keepsPending _ _).trans (restNotice_keepsPending _ _)
  simp only [dropEntry]
  generalize hq : restNotice e.key (countLate e.strike (removeEntry e.key s)) = u at *
  have hpu : ∀ k, (u.key k).pending = (s.key k).pending := hpk.2
  have hlu : u.sched.deferral.length + 1 = s.sched.deferral.length := by rw [hpk.1]; exact hr
  split
  · next st hst =>
    have hlen : (joinDeferral e.key st (updateKey e.key (fun r => { r with pending := none }) u)).sched.deferral.length = u.sched.deferral.length + 1 :=
      insertEntry_length _ _
    have hn : pendingCount (joinDeferral e.key st (updateKey e.key (fun r => { r with pending := none }) u)) + 1 ≤ pendingCount u := by
      apply pendingCount_clear e.key
      · intro j hj
        unfold joinDeferral updateKey
        rw [key_setKey, if_neg hj]
        show ((setKey _ _ u).key j).pending = _
        rw [key_setKey, if_neg hj]
      · rw [hst]; rfl
      · unfold joinDeferral updateKey
        rw [key_setKey, if_pos rfl]
        show ((setKey _ _ u).key e.key).pending = none
        rw [key_setKey, if_pos rfl]
    have : pendingCount u = pendingCount s := pendingCount_congr hpu
    unfold arbiterWork; omega
  · have : pendingCount u = pendingCount s := pendingCount_congr hpu
    unfold arbiterWork; omega

theorem pulseKey_keepsPending (k st) (s : State) : (pulseKey k st s).sched.deferral = s.sched.deferral ∧ ∀ j, ((pulseKey k st s).key j).pending = (s.key j).pending := by
  have : (sendKey k (.pulse st.vals.width) (takeSlot k s)).keys = s.keys ∧ (sendKey k (.pulse st.vals.width) (takeSlot k s)).sched.deferral = s.sched.deferral := by
    unfold takeSlot; split <;> exact ⟨rfl, rfl⟩
  refine ⟨this.2, fun j => ?_⟩
  unfold pulseKey
  rw [pending_updateKey _ _ _ rfl]
  unfold State.key; rw [this.1]

theorem pulseKey_arbiterWork {e : DeferralEntry} {s : State} (h : e ∈ s.sched.deferral) : arbiterWork (pulseKey e.key e.strike (removeEntry e.key s)) + 1 ≤ arbiterWork s := by
  have hr : (removeEntry e.key s).sched.deferral.length + 1 = s.sched.deferral.length := by
    unfold removeEntry
    have := List.length_eraseP_of_mem h (p := (·.key == e.key)) (by simp)
    have hp : 0 < s.sched.deferral.length := List.length_pos_of_mem h
    simp only [this]; omega
  obtain ⟨a, b⟩ := pulseKey_keepsPending e.key e.strike (removeEntry e.key s)
  have : pendingCount (pulseKey e.key e.strike (removeEntry e.key s)) = pendingCount s := pendingCount_congr b
  unfold arbiterWork; rw [a, this]; omega

/-- One pass of the arbiter (R112): the state it leaves, or none if it stops. -/
def arbiterPass (s : State) : Option State :=
  if s.totalFree then
    match s.sched.deferral.find? fun e => s.keyBoardFree e.key with
      | none => none
      | some e => some (if s.late e.strike then dropEntry e s else pulseKey e.key e.strike (removeEntry e.key s))
  else none
theorem arbitrate_succ (n) (s : State) : arbitrate (n+1) s = match arbiterPass s with | none => s | some t => arbitrate n t := by
  simp only [arbitrate, arbiterPass]
  split
  · cases h : s.sched.deferral.find? fun e => s.keyBoardFree e.key with
    | none => rfl
    | some e => simp only; split <;> rfl
  · rfl
theorem arbPass_arbiterWork {s t : State} (h : arbiterPass s = some t) : arbiterWork t + 1 ≤ arbiterWork s := by
  unfold arbiterPass at h
  split at h
  · split at h
    · simp at h
    · next e he =>
      have hm := List.mem_of_find?_eq_some he
      simp only [Option.some.injEq] at h
      subst h
      split
      · exact dropEntry_arbiterWork hm
      · exact pulseKey_arbiterWork hm
  · simp at h
theorem arbitrate_done (n) (s : State) (h : arbiterWork s ≤ n) : arbiterPass (arbitrate n s) = none := by
  induction n generalizing s with
  | zero =>
    cases hp : arbiterPass s with
    | none => exact hp
    | some t => have := arbPass_arbiterWork hp; omega
  | succ n ih =>
    rw [arbitrate_succ]
    cases hp : arbiterPass s with
    | none => exact hp
    | some t => have := arbPass_arbiterWork hp; exact ih t (by omega)
theorem arbitrate_stable (n m) (s : State) (h : arbiterWork s ≤ n) (g : arbiterWork s ≤ m) : arbitrate n s = arbitrate m s := by
  induction n generalizing s m with
  | zero =>
    cases m with
    | zero => rfl
    | succ m =>
      rw [arbitrate_succ]
      cases hp : arbiterPass s with
      | none => rfl
      | some t => have := arbPass_arbiterWork hp; omega
  | succ n ih =>
    rw [arbitrate_succ]
    cases hp : arbiterPass s with
    | none =>
      cases m with
      | zero => rfl
      | succ m => rw [arbitrate_succ, hp]
    | some t =>
      have := arbPass_arbiterWork hp
      cases m with
      | zero => omega
      | succ m => rw [arbitrate_succ, hp]; exact ih _ t (by omega) (by omega)
/-- The arbiter makes passes until one finds nothing to do (R112). -/
theorem runArbiter_eq (s : State) : runArbiter s = match arbiterPass s with | none => s | some t => runArbiter t := by
  have hw : ∀ s : State, arbiterWork s ≤ s.sched.deferral.length + 88 := fun s => by have := pendingCount_le s; unfold arbiterWork; omega
  unfold runArbiter
  rw [arbitrate_stable (s.sched.deferral.length + 88) (s.sched.deferral.length + 88 + 1) s (hw s) (by have := hw s; omega), arbitrate_succ]
  cases hp : arbiterPass s with
  | none => rfl
  | some t =>
    have := arbPass_arbiterWork hp
    have := hw s
    exact arbitrate_stable _ _ _ (by omega) (hw t)

end Sys2Proof.Machine
end

