-- ==== Sys2Proof/Laws/Frames.lean ====
section
/-!
SUPPORT. The bytes of a field, most significant first (R182), and the search for SYNC on both links (R165, R183).
-/
namespace Sys2Proof.Machine

/-! ### Fields -/

theorem f1_eq (n : Nat) : f1 n = [BitVec.ofNat 8 n] := by simp [f1, beBytes, List.range_succ]
theorem f2_eq (n : Nat) : f2 n = f1 (n / 256) ++ f1 n := by simp [f1, f2, beBytes, List.range_succ]
theorem f3_eq (n : Nat) : f3 n = f1 (n / 65536) ++ f2 n := by simp [f1, f2, f3, beBytes, List.range_succ]
theorem f4_eq (n : Nat) : f4 n = f1 (n / 16777216) ++ f3 n := by simp [f1, f3, f4, beBytes, List.range_succ]
theorem f6_eq (n : Nat) : f6 n = f1 (n / 1099511627776) ++ f1 (n / 4294967296) ++ f4 n := by
  simp [f1, f4, f6, beBytes, List.range_succ]

/-- A signed field is the field of the value modulo 2^16. -/
theorem i2_eq (i : Int) : i2 i = f2 (i % 65536).toNat := rfl
/-- The last error is the field of its value modulo 2^48. -/
theorem i6_eq (i : Int) : i6 i = f6 (i % 281474976710656).toNat := rfl

/-- An optional field of a mapped value. -/
theorem fOpt_map {α β : Type} (size : Nat) (field : β → List Byte) (g : α → β) (x : Option α) :
    fOpt size field (x.map g) = fOpt size (fun a => field (g a)) x := by
  cases x <;> rfl

/-! ### Received bytes -/

/-- Bytes that are not SYNC are skipped on the Roll Link. -/
theorem assembleRoll_skip {noise : List Byte} (rest : List Byte) (h : (0xA5 : Byte) ∉ noise) :
    assembleRoll (noise ++ rest) = assembleRoll rest := by
  induction noise with
  | nil => rfl
  | cons b n ih =>
    simp only [List.mem_cons, not_or] at h
    show (if b = rollSync then _ else _) = _
    rw [if_neg (fun e => h.1 e.symm)]
    exact ih h.2

/-- Bytes that are not SYNC are skipped on the Action Link. -/
theorem assembleAction_skip {noise : List Byte} (rest : List Byte) (h : (0x5A : Byte) ∉ noise) :
    assembleAction (noise ++ rest) = assembleAction rest := by
  induction noise with
  | nil => rfl
  | cons b n ih =>
    simp only [List.mem_cons, not_or] at h
    show (if b = actionSync then _ else _) = _
    rw [if_neg (fun e => h.1 e.symm)]
    exact ih h.2

/-- A two-byte number, high byte first. -/
theorem be2_toNat (a b : Byte) : (be2 a b).toNat = a.toNat * 256 + b.toNat := by
  unfold be2
  rw [BitVec.toNat_append]
  have := b.isLt
  rw [Nat.shiftLeft_eq, ← Nat.shiftLeft_eq, ← Nat.shiftLeft_add_eq_or_of_lt this, Nat.shiftLeft_eq]

end Sys2Proof.Machine
end

