-- ==== Sys2Proof/Laws/Pedals.lean ====
section
/-!
SUPPORT. What driving a pedal comes to: the table of R88, whatever the pedal's phase.
-/
namespace Sys2Proof.Machine

/-- Put a pedal's record in place and send what it calls for. -/
def setAndSend (p : Pedal) (x : PedalRec × Option DriveAction) (s : State) : State :=
  updatePedal p (fun _ => x.1) (sendAll (x.2.bind fun a => driveCmd (s.pedalWire p) a).toList s)

/-- Driving a pedal is the table of R88. -/
theorem drivePedal_eq (p : Pedal) (s : State) : drivePedal p s = setAndSend p (s.pedalTakes p (s.pedal p)) s := by
  have hc : s.commands p (s.pedal p) = s.commandedDown p := rfl
  unfold State.pedalTakes
  rw [hc]
  unfold drivePedal PedalRec.follows PedalRec.towardDown pressPedal liftPedal setAndSend
  cases p <;> cases hd : s.commandedDown _ <;> cases hp : (s.pedal _).phase <;> cases hr : (s.pedal _).relWait <;>
    simp [updatePedal, setPedal, sendPedal, sendAll, State.pedal] at * <;> try simp_all
  all_goals rw [← hp, ← hr]

/-- Changing a pedal's sources and driving it. -/
theorem changePedal_eq (p : Pedal) (f : PedalRec → PedalRec) (s : State) :
    changePedal p f s = setAndSend p (s.pedalTakes p (f (s.pedal p))) s := by
  have hp : (updatePedal p f s).pedal p = f (s.pedal p) := by cases p <;> rfl
  have ht : ∀ r, (updatePedal p f s).pedalTakes p r = s.pedalTakes p r := by cases p <;> exact fun _ => rfl
  unfold changePedal
  rw [drivePedal_eq, hp, ht]
  cases p <;> rfl

/-- Changing and driving both pedals. -/
theorem changePedals_eq (f : PedalRec → PedalRec) (s : State) :
    changePedals f s =
      { s with
        pedals := { sustain := (s.pedalTakes .sustain (f s.pedals.sustain)).1
                    soft := (s.pedalTakes .soft (f s.pedals.soft)).1 }
        link := { s.link with sentDrive := s.link.sentDrive ++ s.pedalSends f } } := by
  unfold changePedals
  rw [changePedal_eq, changePedal_eq]
  have h1 : ∀ x, (setAndSend .sustain x s).pedal .soft = s.pedal .soft := fun _ => rfl
  have h2 : ∀ x r, (setAndSend .sustain x s).pedalTakes .soft r = s.pedalTakes .soft r := fun _ _ => rfl
  rw [h1, h2]
  have h3 : s.pedalSends f =
      ((s.pedalTakes .sustain (f (s.pedal .sustain))).2.bind fun a => driveCmd (s.pedalWire .sustain) a).toList ++
        ((s.pedalTakes .soft (f (s.pedal .soft))).2.bind fun a => driveCmd (s.pedalWire .soft) a).toList := by
    simp only [State.pedalSends, allPedals, List.filterMap_cons, List.filterMap_nil]
    generalize ((s.pedalTakes .sustain (f (s.pedal .sustain))).2.bind fun a => driveCmd (s.pedalWire .sustain) a) = x
    generalize ((s.pedalTakes .soft (f (s.pedal .soft))).2.bind fun a => driveCmd (s.pedalWire .soft) a) = y
    cases x <;> cases y <;> rfl
  rw [h3, ← List.append_assoc]
  rfl

end Sys2Proof.Machine
end

