-- ==== Sys2Proof/Laws/HandsOn.lean ====
section
/-!
SUPPORT. What handing on the transitions of a line, and dispatching records, leaves alone.
-/
namespace Sys2Proof.Machine

/-- What handing on transitions, records, strikes and releases leaves alone: the line history, the expression, the reader,
Performance Control and the Line Clock; and no flag falls. -/
structure HandsOn (s t : State) : Prop where
  intake : t.intake = s.intake
  expr : t.expr = s.expr
  perf : t.perf = s.perf
  reader : t.reader = s.reader
  clock : t.clock = s.clock
  flag : ∀ f, s.flag f = true → t.flag f = true

theorem HandsOn.refl (s : State) : HandsOn s s := ⟨rfl, rfl, rfl, rfl, rfl, fun _ h => h⟩
theorem HandsOn.trans {a b c : State} (h : HandsOn a b) (g : HandsOn b c) : HandsOn a c :=
  ⟨g.1.trans h.1, g.2.trans h.2, g.3.trans h.3, g.4.trans h.4, g.5.trans h.5, fun f x => g.6 f (h.6 f x)⟩
theorem HandsOn.raise (f) (s : State) : HandsOn s (raise f s) := ⟨rfl, rfl, rfl, rfl, rfl, fun g x => by rw [flag_raise, x]; rfl⟩
theorem HandsOn.count (c) (s : State) : HandsOn s (count c s) := ⟨rfl, rfl, rfl, rfl, rfl, fun _ x => x⟩
theorem HandsOn.upd (k f) (s : State) : HandsOn s (updateKey k f s) := ⟨rfl, rfl, rfl, rfl, rfl, fun _ x => x⟩
theorem HandsOn.updPedal (p f) (s : State) : HandsOn s (updatePedal p f s) := by cases p <;> exact ⟨rfl, rfl, rfl, rfl, rfl, fun _ x => x⟩
theorem HandsOn.sched (c) (s : State) : HandsOn s { s with sched := c } := ⟨rfl, rfl, rfl, rfl, rfl, fun _ x => x⟩
theorem HandsOn.sendAll (l) (s : State) : HandsOn s (sendAll l s) := ⟨rfl, rfl, rfl, rfl, rfl, fun _ x => x⟩
theorem HandsOn.finishProbe (f) (s : State) : HandsOn s (finishProbe f s) := ⟨by rw [finishProbe_eq], by rw [finishProbe_eq], by rw [finishProbe_eq], by rw [finishProbe_eq], by rw [finishProbe_eq], (Calm.finishProbe f s).flag⟩
theorem HandsOn.endProbe (t c) (s : State) : HandsOn s (endProbe t c s) := by
  unfold Machine.endProbe; split
  · exact HandsOn.finishProbe _ _
  · exact HandsOn.refl _
theorem HandsOn.takeSlot (k) (s : State) : HandsOn s (takeSlot k s) := by unfold Machine.takeSlot; split <;> exact ⟨rfl, rfl, rfl, rfl, rfl, fun _ x => x⟩
theorem HandsOn.pulseKey (k st) (s : State) : HandsOn s (pulseKey k st s) := ((HandsOn.takeSlot k s).trans (HandsOn.sendAll _ _)).trans (HandsOn.upd _ _ _)
theorem HandsOn.joinDeferral (k st) (s : State) : HandsOn s (joinDeferral k st s) := (HandsOn.sched _ s).trans (HandsOn.upd _ _ _)
theorem HandsOn.countLate (st) (s : State) : HandsOn s (countLate st s) := ((HandsOn.count _ _).trans (HandsOn.raise _ _)).trans (HandsOn.endProbe _ _ _)
theorem HandsOn.offer (c k st) (s : State) : HandsOn s (offer c k st s) := by
  unfold Machine.offer; split
  · exact HandsOn.countLate _ _
  · split
    · exact HandsOn.pulseKey _ _ _
    · exact HandsOn.joinDeferral _ _ _
theorem HandsOn.park (k st) (s : State) : HandsOn s (park k st s) := by
  unfold Machine.park
  refine HandsOn.trans (b := if (s.key k).pending.isSome then Machine.count .supersededStrikes s else s) ?_ (HandsOn.upd _ _ _)
  split
  · exact HandsOn.count _ _
  · exact HandsOn.refl _
theorem HandsOn.strikeReaches (k st) (s : State) : HandsOn s (strikeReaches k st s) := by
  unfold Machine.strikeReaches; split
  · exact HandsOn.offer _ _ _ _
  · exact HandsOn.park _ _ _
  · exact HandsOn.park _ _ _
  · exact HandsOn.park _ _ _
  · exact HandsOn.park _ _ _
  · exact (HandsOn.count _ _).trans (HandsOn.endProbe _ _ _)
theorem HandsOn.letGo (k) (s : State) : HandsOn s (letGo k s) := (HandsOn.sendAll _ _).trans (HandsOn.upd _ _ _)
theorem HandsOn.releaseReaches (k t) (s : State) : HandsOn s (releaseReaches k t s) := by
  unfold Machine.releaseReaches; dsimp only
  split
  · exact HandsOn.upd _ _ _
  · split
    · exact HandsOn.letGo _ _
    · split
      · exact HandsOn.sched _ _
      · split
        · exact HandsOn.upd _ _ _
        · exact HandsOn.refl _
theorem HandsOn.drivePedal (p) (s : State) : HandsOn s (drivePedal p s) := by
  rw [drivePedal_eq]; exact (HandsOn.sendAll _ _).trans (HandsOn.updPedal _ _ _)
theorem HandsOn.changePedal (p f) (s : State) : HandsOn s (changePedal p f s) := (HandsOn.updPedal _ _ _).trans (HandsOn.drivePedal _ _)
theorem HandsOn.handRecord (r) (s : State) : HandsOn s (handRecord r s) := by
  unfold Machine.handRecord; split
  · exact HandsOn.strikeReaches _ _ _
  · exact HandsOn.releaseReaches _ _ _
  · exact HandsOn.changePedal _ _ _
  · unfold takePedalUp; split
    · exact HandsOn.changePedal _ _ _
    · exact HandsOn.refl _
theorem HandsOn.dispatchHead (s : State) : HandsOn s (dispatchHead s) := by
  unfold Machine.dispatchHead; split
  · exact (HandsOn.sched _ s).trans (HandsOn.handRecord _ _)
  · exact HandsOn.refl _
theorem HandsOn.dispatchFirst (n) (s : State) : HandsOn s (dispatchFirst n s) := by
  induction n generalizing s with
  | zero => exact HandsOn.refl _
  | succ n ih => exact (HandsOn.dispatchHead s).trans (ih _)
theorem HandsOn.enqueue (r) (s : State) : HandsOn s (enqueue r s) := by
  unfold Machine.enqueue; dsimp only; split
  · exact (HandsOn.sched _ s).trans (HandsOn.dispatchFirst _ _)
  · exact HandsOn.sched _ s
theorem HandsOn.setOwed (k t) (s : State) : HandsOn s (setOwed k t s) := by
  unfold Machine.setOwed; split <;> first | exact HandsOn.upd _ _ _ | exact HandsOn.updPedal _ _ _
theorem HandsOn.setRefused (k t) (s : State) : HandsOn s (setRefused k t s) := by
  unfold Machine.setRefused; split <;> first | exact HandsOn.upd _ _ _ | exact HandsOn.updPedal _ _ _
theorem HandsOn.admitOnset (r) (s : State) : HandsOn s (admitOnset r s) := by
  unfold Machine.admitOnset; split
  · exact ((HandsOn.sched _ s).trans (HandsOn.setOwed _ _ _)).trans (HandsOn.enqueue _ _)
  · exact ((HandsOn.setRefused _ _ s).trans (HandsOn.count _ _)).trans (HandsOn.raise _ _)
theorem HandsOn.admitRelease (r) (s : State) : HandsOn s (admitRelease r s) := by
  unfold Machine.admitRelease; split
  · exact ((HandsOn.sched _ s).trans (HandsOn.setOwed _ _ _)).trans (HandsOn.enqueue _ _)
  · split
    · exact HandsOn.setRefused _ _ _
    · exact HandsOn.refl _
theorem HandsOn.handClosing (f l o) (s : State) : HandsOn s (handClosing f l o s) := by
  unfold Machine.handClosing; split <;> first | exact HandsOn.admitRelease _ _ | exact HandsOn.refl _
theorem HandsOn.handOpening (f l) (s : State) : HandsOn s (handOpening f l s) := by
  unfold Machine.handOpening; split
  · unfold requestStrike; dsimp only
    refine HandsOn.trans (b := noteStrike _ _ _ _ s) ⟨rfl, rfl, rfl, rfl, rfl, fun _ x => x⟩ (HandsOn.admitOnset _ _)
  · unfold requestPedalDown; dsimp only
    exact (HandsOn.updPedal _ _ _).trans (HandsOn.admitOnset _ _)
  all_goals exact HandsOn.refl _
theorem HandsOn.foldl {α} (f : State → α → State) (h : ∀ s a, HandsOn s (f s a)) (l : List α) (s : State) : HandsOn s (l.foldl f s) := by
  induction l generalizing s with
  | nil => exact HandsOn.refl _
  | cons a l ih => exact (h s a).trans (ih _)
theorem HandsOn.handClosings (v) (s : State) : HandsOn s (handClosings v s) := by
  unfold Machine.handClosings
  refine HandsOn.foldl _ (fun s t => ?_) _ s
  split
  · exact HandsOn.handClosing _ _ _ _
  · exact HandsOn.refl _
theorem HandsOn.handOpenings (v) (s : State) : HandsOn s (handOpenings v s) := by
  unfold Machine.handOpenings
  refine HandsOn.foldl _ (fun s t => ?_) _ s
  split
  · exact HandsOn.handOpening _ _ _
  · exact HandsOn.refl _

end Sys2Proof.Machine
end

