-- ==== Sys2Proof/Laws/Idle.lean ====
section
/-!
SUPPORT. What can happen on an empty queue, event by event.
-/
namespace Sys2Proof.Machine

/-- A command stands in the list exactly when its time has come. -/
theorem mem_whenDue (due : Bool) (c d : Instr) : d ∈ whenDue due c ↔ due = true ∧ d = c := by
  unfold whenDue
  cases due <;> simp

/-- A timer has been reached when it runs and its time is not later than action time. -/
theorem reached_iff (s : State) (timer : Option Nat) :
    s.reached timer = true ↔ ∃ t, timer = some t ∧ t ≤ s.clock.actionTime := by
  unfold State.reached
  cases timer <;> simp

/-- When a timed event is due (R7, R13, R89, R104, R123, R126, R129); no other command is one. -/
def State.timedDue (s : State) : Instr → Bool
  | .pausePointReached => s.pauseReached
  | .dispatch => s.headDue
  | .lossTimeout => s.perf.state = .playing && s.reached s.perf.lossTimer
  | .pulseEnd k => (s.key k).phase = .striking && s.reached (s.key k).pulseEnd
  | .holdLimit k => (s.key k).phase = .held && s.reached (s.key k).holdLimit
  | .returnTimer k => (s.key k).phase = .releasing && s.reached ((s.key k).returnTimer.map (·.1))
  | .engageEnd p => (s.pedal p).phase = .engaging && s.reached (s.pedal p).engageEnd
  | _ => false

/-- The timed events are the commands that are due. -/
theorem mem_timedEvents (s : State) (c : Instr) : c ∈ timedEvents s ↔ s.timedDue c = true := by
  have hp : ∀ p, p ∈ allPedals := by intro p; cases p <;> decide
  unfold timedEvents keyEvents
  simp only [List.mem_append, List.mem_flatMap, mem_whenDue, mem_allKeys, hp, true_and]
  constructor
  · rintro ((((⟨h, rfl⟩ | ⟨h, rfl⟩) | ⟨h, rfl⟩) | ⟨k, (⟨h, rfl⟩ | ⟨h, rfl⟩) | ⟨h, rfl⟩⟩) | ⟨p, h, rfl⟩) <;> exact h
  · intro h
    unfold State.timedDue at h
    split at h
    · exact .inl (.inl (.inl (.inl ⟨h, rfl⟩)))
    · exact .inl (.inl (.inl (.inr ⟨h, rfl⟩)))
    · exact .inl (.inl (.inr ⟨h, rfl⟩))
    · exact .inl (.inr ⟨_, .inl (.inl ⟨h, rfl⟩)⟩)
    · exact .inl (.inr ⟨_, .inl (.inr ⟨h, rfl⟩)⟩)
    · exact .inl (.inr ⟨_, .inr ⟨h, rfl⟩⟩)
    · exact .inr ⟨_, h, rfl⟩
    · cases h

/-- The command that sends the frame at the head of those due. -/
theorem mem_sendEvents (s : State) (c : Instr) :
    c ∈ sendEvents s ↔ (c = .responseSend ∧ ∃ id r data rest, s.mgmt.outbound = .response id r data :: rest) ∨
      (c = .noticeSend ∧ ∃ rest, s.mgmt.outbound = .notice :: rest) := by
  unfold sendEvents
  split <;> simp_all

/-- What can happen while no RESET FULL is about to take effect. -/
theorem mem_idleEvents {s : State} (h : s.mgmt.fullReset ≠ .ready) (e : IdleEvent) :
    e ∈ idleEvents s ↔ (∃ c, e = .own c ∧ (s.timedDue c = true ∨ c ∈ sendEvents s)) ∨
      (e = .waiting ∧ s.waitingReady = true) ∨
      (e = .rollFrame ∧ Assembled.complete (assembleRoll s.link.rollRx) = true) ∨
      (e = .actionFrame ∧ Assembled.complete (assembleAction s.link.actionRx) = true) ∨
      (e = .tick ∧ ∀ c, s.timedDue c = false) := by
  have hw : ∀ (b : Bool) (x : IdleEvent), (e ∈ if b = true then [x] else []) ↔ e = x ∧ b = true := by
    intro b x; cases b <;> simp
  have ht : (timedEvents s).isEmpty = true ↔ ∀ c, s.timedDue c = false := by
    rw [List.isEmpty_iff, List.eq_nil_iff_forall_not_mem]
    simp only [mem_timedEvents, Bool.not_eq_true]
  unfold idleEvents
  rw [if_neg h]
  simp only [List.mem_append, hw, ht, List.mem_map, mem_timedEvents, or_assoc]
  refine or_congr ⟨?_, ?_⟩ Iff.rfl
  · rintro ⟨c, hc, rfl⟩; exact ⟨c, rfl, hc⟩
  · rintro ⟨c, rfl, hc⟩; exact ⟨c, hc, rfl⟩

end Sys2Proof.Machine
end

