-- ==== Sys2Proof/Laws/Lines.lean ====
section
/-!
SUPPORT. What the parts of an accepted line come to: the two ways in which it is stamped (R3, R24, R26, R32), the paper
edges (R42), the onsets (R10), and the channels it reads (R56, R67).
-/
namespace Sys2Proof.Machine

/-! ### Stamping -/

/-- The first line after START is stamped with its arrival. -/
theorem stampLine_first {s : State} (n : Nat) (h : s.perf.state = .armed ∨ s.intake.history = []) :
    stampLine n s = recordLine n s.playTime (switchAt s.playTime (s.clock.loop.onFirstLine s.playTime) s) := by
  unfold stampLine
  rcases h with h | h
  · rw [h]
  · rw [h]; cases s.perf.state <;> rfl

/-- Any other line is stamped after the newest line of the history. -/
theorem stampLine_next {s : State} (n : Nat) {h : List Stamp} {last : Stamp} (ha : s.perf.state ≠ .armed)
    (hh : s.intake.history = h ++ [last]) :
    stampLine n s =
      let g := n - last.line - 1
      let l := s.clock.loop.onLine s.pNom s.playTime g
      let t := s.lineTime last n l
      recordLine n t (switchAt t l (if 8 < g then count .gapEvents s else s)) := by
  unfold stampLine
  rw [hh, List.getLast?_concat]
  cases hs : s.perf.state <;> simp_all

/-- Replacing the loop sets LOCK_CHANGE if LOCKED changes, and changes nothing else. -/
theorem setLoop_spec (l : LoopRec) (s : State) :
    (setLoop l s).clock = { s.clock with loop := l } ∧
      (∀ f, (setLoop l s).flag f = (s.flag f || (f == .lockChange && l.locked != s.clock.loop.locked))) ∧
      (∀ c, (setLoop l s).counter c = s.counter c) ∧
      { setLoop l s with clock := s.clock, mgmt := s.mgmt } = s := by
  unfold setLoop
  refine ⟨by unfold raiseIf; split <;> rfl, fun f => ?_, fun c => by unfold raiseIf; split <;> rfl,
    by unfold raiseIf; split <;> rfl⟩
  rw [flag_raiseIf]
  show (s.flag f || _) = _
  cases hx : (l.locked != s.clock.loop.locked) <;> simp [beq_eq_decide]

/-- A pending switch completes at the line, LINE with the line's time as its phase; the line joins the history; besides
these the clock changes in its loop alone, the flags in LOCK_CHANGE alone. -/
theorem recordLine_switchAt (n t : Nat) (l : LoopRec) (s : State) :
    let out := recordLine n t (switchAt t l s)
    out.clock = { s.clock with
      base := s.clock.switch.getD s.clock.base, switch := none
      loop := { l with tLoop := if s.clock.switch = some .line then t else l.tLoop } } ∧
    (∀ f, out.flag f = (s.flag f || (f == .lockChange && l.locked != s.clock.loop.locked))) ∧
    (∀ c, out.counter c = s.counter c) ∧ { out with intake := s.intake, clock := s.clock, mgmt := s.mgmt } = s := by
  dsimp only
  unfold switchAt
  split
  · next h =>
    obtain ⟨a, b, c, d⟩ := setLoop_spec l s
    refine ⟨?_, b, c, congrArg (fun w : State => { w with intake := s.intake }) d⟩
    show (setLoop l s).clock = _
    rw [a, h, Option.getD_none]
    have : s.clock = { s.clock with switch := none } := by rw [← h]
    rw [this]; rfl
  · next h =>
    obtain ⟨a, b, c, d⟩ := setLoop_spec { l with tLoop := t } s
    refine ⟨?_, b, c, congrArg (fun w : State => { w with intake := s.intake }) d⟩
    show { (setLoop { l with tLoop := t } s).clock with base := .line, switch := none } = _
    rw [a, h]; rfl
  · next h =>
    obtain ⟨a, b, c, d⟩ := setLoop_spec l s
    refine ⟨?_, b, c, congrArg (fun w : State => { w with intake := s.intake }) d⟩
    show { (setLoop l s).clock with base := .free, switch := none } = _
    rw [a, h]; rfl

/-! ### The paper's edges -/

theorem head?_filter_range {p : Nat → Bool} {n l : Nat} (hl : l < n) (h : p l = true) (hm : ∀ i < l, p i = false) :
    ((List.range n).filter p).head? = some l := by
  rw [List.head?_filter, List.find?_range_eq_some]
  exact ⟨h, List.mem_range.mpr hl, fun j hj => by simp [hm j hj]⟩

theorem getLast?_filter_range {p : Nat → Bool} {n r : Nat} (hr : r < n) (h : p r = true)
    (hm : ∀ i, r < i → i < n → p i = false) : ((List.range n).filter p).getLast? = some r := by
  induction n with
  | zero => omega
  | succ n ih =>
    rw [List.range_succ, List.filter_append]
    by_cases e : r = n
    · subst e; simp [h]
    · rw [List.filter_singleton, hm n (by omega) (by omega)]
      simpa using ih (by omega) (fun i a b => hm i a (by omega))

/-- A cell is dark at the threshold. -/
theorem dark_iff (threshold : Nat) (cells : Vector Byte 128) (i : Fin 128) :
    (cells[i.val]?).any (fun c => decide (c.toNat ≤ threshold)) = decide (cells[i].toNat ≤ threshold) := by
  simp

/-- The outermost dark cells are the edges. -/
theorem paperEdges_some {threshold : Nat} {cells : Vector Byte 128} {l r : Fin 128} (hl : cells[l].toNat ≤ threshold)
    (hr : cells[r].toNat ≤ threshold) (h : ∀ i : Fin 128, cells[i].toNat ≤ threshold → l ≤ i ∧ i ≤ r) :
    paperEdges threshold cells = some (l.val, r.val) := by
  unfold paperEdges
  dsimp only
  rw [head?_filter_range l.isLt (by rw [dark_iff]; simpa using hl),
    getLast?_filter_range r.isLt (by rw [dark_iff]; simpa using hr)]
  · rfl
  · intro i hi hn
    have hd := dark_iff threshold cells ⟨i, hn⟩
    dsimp only at hd
    rw [hd, decide_eq_false_iff_not]
    intro x
    have := (h ⟨i, hn⟩ x).2
    simp [Fin.le_def] at this
    omega
  · intro i hi
    have hd := dark_iff threshold cells ⟨i, by omega⟩
    dsimp only at hd
    rw [hd, decide_eq_false_iff_not]
    intro x
    have := (h ⟨i, by omega⟩ x).1
    simp [Fin.le_def] at this
    omega

/-- A line without a dark cell has no edges. -/
theorem paperEdges_none {threshold : Nat} {cells : Vector Byte 128} (h : ∀ i : Fin 128, ¬cells[i].toNat ≤ threshold) :
    paperEdges threshold cells = none := by
  have hf : ((List.range 128).filter fun i => (cells[i]?).any fun c => decide (c.toNat ≤ threshold)) = [] := by
    rw [List.filter_eq_nil_iff]
    intro i hi
    have hi := List.mem_range.mp hi
    have hd := dark_iff threshold cells ⟨i, hi⟩
    dsimp only at hd
    rw [hd]
    simpa using h ⟨i, hi⟩
  unfold paperEdges
  dsimp only
  rw [hf]
  rfl

/-! ### Onsets and channels -/

/-- A CUE onset leaves the functions in force as they are. -/
theorem cueOnset_inForce (m : Nat) (s : State) : (cueOnset m s).reader.inForce = s.reader.inForce := by
  unfold cueOnset
  dsimp only
  split
  · unfold setPausePoint; split <;> rfl
  · rfl

/-- A function's channel is open when an open track is routed to it. -/
theorem channelOpen_iff (f : RouteFn) (s : State) :
    s.channelOpen f = true ↔ ∃ u : Track, s.reader.inForce[u] = f ∧ s.reader.detectors[u].eff = true := by
  unfold State.channelOpen
  rw [any_allTracks]
  simp

end Sys2Proof.Machine
end

