-- ==== Sys2Proof/Laws/Loads.lean ====
section
/-!
SUPPORT. What a table load comes to: which loads fit, the table that is left, and the answer.
-/
namespace Sys2Proof.Machine

/-- A load addresses only entries of the table exactly when it fits. -/
theorem addresses_iff {α : Type} (n : Nat) (l : Load α) : addresses n l = true ↔ loadFits n l := by
  unfold addresses
  rw [Bool.and_eq_true, decide_eq_true_eq, decide_eq_true_eq, List.length_pos_iff]

/-- An answer from a comparison. -/
theorem loadResult_eq {α : Type} [DecidableEq α] (given clamped : List α) :
    loadResult (clamped != given) = loadAnswer given clamped := by
  unfold loadResult loadAnswer
  by_cases h : clamped = given <;> simp [h]

/-- A load of unsigned values: the table and the answer in one. -/
theorem clampedLoad_eq {w n : Nat} (range : Nat → Nat × Nat) (held : Vector Nat n) (l : Load (BitVec w)) :
    ((clampedLoad range held l).1, loadResult (clampedLoad range held l).2) = loadTakes range held l := by
  have hv : clampEntries (clampBy range) l = loadValues range l := rfl
  have hl : (loadValues range l).length = l.entries.length := by simp [loadValues]
  unfold clampedLoad loadTakes
  rw [hv]
  refine Prod.ext ?_ (loadResult_eq _ _)
  show overlay held l.first.toNat (loadValues range l) = _
  unfold overlay
  congr 1
  funext i
  by_cases h : l.first.toNat ≤ i.val
  · by_cases g : i.val < l.first.toNat + l.entries.length
    · have hi : i.val - l.first.toNat < (loadValues range l).length := by omega
      simp [h, g, hi]
    · have hi : ¬ i.val - l.first.toNat < (loadValues range l).length := by omega
      simp [h, g]
      rw [List.getElem?_eq_none (by omega)]
      rfl
  · simp [h]

/-- A load leaves its own value in each place that it addresses. -/
theorem overlay_loaded {α : Type} {n : Nat} (held : Vector α n) {first : Nat} {loaded : List α} {i : Fin n} {j : Nat}
    (h : first + j = i.val) {v : α} (hv : loaded[j]? = some v) : (overlay held first loaded)[i] = v := by
  have hj : i.val - first = j := by omega
  simp [overlay, show first ≤ i.val by omega, hj, hv]

/-- A load keeps every other place. -/
theorem overlay_held {α : Type} {n : Nat} (held : Vector α n) {first : Nat} {loaded : List α} {i : Fin n}
    (h : i.val < first ∨ first + loaded.length ≤ i.val) : (overlay held first loaded)[i] = held[i] := by
  by_cases g : first ≤ i.val
  · simp [overlay, g, List.getElem?_eq_none (show loaded.length ≤ i.val - first by omega)]
  · simp [overlay, g]

end Sys2Proof.Machine
end

