-- ==== Sys2Proof/Laws/Parse.lean ====
section
/-!
SUPPORT. What the readers of a request's operands give: the entries of a LOAD (R168, R181), the stated sets of a PROFILE
(R181), and the small forms (R180).
-/
namespace Sys2Proof

/-- The chunks of a list of items that each take `size` bytes are the items' bytes. -/
theorem chunks_flatMap {α : Type} {size : Nat} (hs : 0 < size) {bytesOf : α → List Byte}
    (hb : ∀ a, (bytesOf a).length = size) :
    ∀ (items : List α) (fuel : Nat), (items.flatMap bytesOf).length ≤ fuel →
      chunks size fuel (items.flatMap bytesOf) = some (items.map bytesOf)
  | [], fuel, _ => by cases fuel <;> rfl
  | e :: es, 0, h => by simp [hb] at h; omega
  | e :: es, fuel + 1, h => by
    simp only [List.flatMap_cons, List.length_append, hb] at h
    obtain ⟨x, xs, hx⟩ : ∃ x xs, bytesOf e = x :: xs := by
      cases he : bytesOf e with
      | nil => have := hb e; rw [he] at this; simp at this; omega
      | cons x xs => exact ⟨x, xs, rfl⟩
    rw [show (e :: es).flatMap bytesOf = x :: (xs ++ es.flatMap bytesOf) from by simp [hx]]
    unfold chunks
    rw [← List.cons_append, ← hx, if_neg (by simp [hb]), List.drop_append_of_le_length (by rw [hb]),
      List.drop_of_length_le (by rw [hb]), List.take_append_of_le_length (by rw [hb]), List.take_of_length_le (by rw [hb])]
    simp only [List.nil_append]
    rw [chunks_flatMap hs hb es fuel (by omega)]
    rfl

/-- Bytes that come out even in chunks amount to their number times `size`. -/
theorem chunks_length {size : Nat} :
    ∀ {fuel : Nat} {bytes : List Byte} {cs : List (List Byte)}, chunks size fuel bytes = some cs →
      bytes.length = cs.length * size
  | fuel, [], cs, h => by unfold chunks at h; simp at h; subst h; simp
  | 0, _ :: _, cs, h => by simp [chunks] at h
  | fuel + 1, b :: bs, cs, h => by
    unfold chunks at h
    split at h
    · simp at h
    · rw [Option.map_eq_some_iff] at h
      obtain ⟨ds, hd, rfl⟩ := h
      have := chunks_length hd
      simp only [List.length_drop, List.length_cons] at *
      rw [Nat.add_mul]
      omega

/-- The entries of a LOAD are read back from their bytes. -/
theorem parseEntries_flatMap {α : Type} {size : Nat} (hs : 0 < size) {bytesOf : α → List Byte}
    {entry : List Byte → α} (hb : ∀ a, (bytesOf a).length = size) (he : ∀ a, entry (bytesOf a) = a)
    (first : BitVec 16) {count : Byte} {entries : List α} (h : entries.length = count.toNat) :
    parseEntries size entry first count (entries.flatMap bytesOf) = .good ⟨first, entries⟩ := by
  unfold parseEntries
  rw [chunks_flatMap hs hb entries _ (Nat.le_refl _)]
  simp [h, Function.comp_def, he]

/-- Entry bytes that do not amount to `count` entries are a bad form (R168). -/
theorem parseEntries_bad {α : Type} {size : Nat} (entry : List Byte → α) (first : BitVec 16) {count : Byte}
    {bytes : List Byte} (h : bytes.length ≠ count.toNat * size) : parseEntries size entry first count bytes = .bad := by
  unfold parseEntries
  cases hc : chunks size bytes.length bytes with
  | none => rfl
  | some cs =>
    dsimp only
    rw [if_neg]
    intro e
    exact h (by rw [← e]; exact chunks_length hc)

/-- A stated set of four fields is sound when no higher bit is set and no unstated field carries anything (R181). -/
theorem statedOk_iff (stated : Byte) (a b c d : Nat) :
    statedOk stated [a, b, c, d] = true ↔
      stated.toNat < 16 ∧ (stated.getLsbD 0 = false → a = 0) ∧ (stated.getLsbD 1 = false → b = 0) ∧
        (stated.getLsbD 2 = false → c = 0) ∧ (stated.getLsbD 3 = false → d = 0) := by
  simp only [statedOk, List.length_cons, List.length_nil, Bool.and_eq_true, decide_eq_true_eq, List.all_eq_true,
    List.mem_range, Bool.or_eq_true, beq_iff_eq]
  constructor
  · rintro ⟨h1, h2⟩
    refine ⟨h1, fun h => ?_, fun h => ?_, fun h => ?_, fun h => ?_⟩
    · have := h2 0 (by omega); rw [h] at this; simpa using this
    · have := h2 1 (by omega); rw [h] at this; simpa using this
    · have := h2 2 (by omega); rw [h] at this; simpa using this
    · have := h2 3 (by omega); rw [h] at this; simpa using this
  · rintro ⟨h1, h2, h3, h4, h5⟩
    refine ⟨h1, fun i hi => ?_⟩
    have : i = 0 ∨ i = 1 ∨ i = 2 ∨ i = 3 := by omega
    rcases this with rfl | rfl | rfl | rfl
    · cases h : stated.getLsbD 0 <;> simp_all
    · cases h : stated.getLsbD 1 <;> simp_all
    · cases h : stated.getLsbD 2 <;> simp_all
    · cases h : stated.getLsbD 3 <;> simp_all

/-- A request without operands. -/
theorem parseNone_eq (bytes : List Byte) : parseNone bytes = if bytes = [] then .good () else .bad := by
  cases bytes <;> simp [parseNone]

/-- The line number that must be 0 (R180). -/
theorem parseZeroLine_eq (bytes : List Byte) :
    parseZeroLine bytes = if bytes = List.replicate 3 0 then .good () else .bad := by
  unfold parseZeroLine
  split
  · simp [List.replicate]
  · next h => rw [if_neg]; intro e; exact h e

/-- The key byte that must be 0 (R180). -/
theorem parseZeroByte_eq (bytes : List Byte) :
    parseZeroByte bytes = if bytes = List.replicate 1 0 then .good () else .bad := by
  unfold parseZeroByte
  split
  · simp [List.replicate]
  · next h => rw [if_neg]; intro e; exact h e

/-- A pedal byte (R180). -/
theorem parsePedal_eq (p : Byte) :
    parsePedal p = if p = 0 then .good .sustain else if p = 1 then .good .soft else .bad := by
  revert p
  decide

/-- The CRC as it is sent: the register after every data bit, most significant first, high byte first (R179). -/
theorem crcBytes_eq (bytes : List Byte) :
    let crc := (bytes.flatMap fun x => [7, 6, 5, 4, 3, 2, 1, 0].map fun i => x.getLsbD i).foldl
      (fun (reg : BitVec 16) (bit : Bool) =>
        if reg.getLsbD 15 = bit then reg <<< 1 else (reg <<< 1) ^^^ 0x1021#16) 0xFFFF#16
    crcBytes bytes = [crc.extractLsb' 8 8, crc.extractLsb' 0 8] := by
  intro crc
  have h : crc = crc16 bytes := by
    simp only [crc, crc16, List.foldl_flatMap]
    congr 1
    funext r b
    simp only [crcByte, List.foldl_map]
    congr 1
    funext r i
    simp only [crcBit]
    split <;> simp_all
  rw [h]
  simp only [crcBytes, beBytes, List.range_succ]
  simp
  generalize crc16 bytes = w
  constructor <;> (apply BitVec.eq_of_toNat_eq; simp [BitVec.extractLsb'_toNat, Nat.shiftRight_eq_div_pow])

end Sys2Proof
end

