-- ==== Sys2Proof/Laws/Queue.lean ====
section
/-!
SUPPORT. Handing a record to its target neither reads nor changes the Fire Queue, nor time.
-/
namespace Sys2Proof.Machine

/-- The state with another Fire Queue. -/
def State.withQueue (q : List FireRecord) (s : State) : State := { s with sched := { s.sched with queue := q } }

theorem withQueue_endProbe (q t c) (s : State) : (endProbe t c s).withQueue q = endProbe t c (s.withQueue q) := by
  rw [endProbe_eq, endProbe_eq]
  show State.withQueue q (ite _ _ _) = ite (s.isBusyProbe t = true) _ _
  split <;> rfl

theorem withQueue_takeSlot (q k) (s : State) : (takeSlot k s).withQueue q = takeSlot k (s.withQueue q) := by
  unfold takeSlot
  rw [show (s.withQueue q).keyWire k = s.keyWire k from rfl]
  cases s.keyWire k <;> rfl

theorem withQueue_pulseKey (q k st) (s : State) : (pulseKey k st s).withQueue q = pulseKey k st (s.withQueue q) := by
  unfold pulseKey
  rw [← withQueue_takeSlot]
  rfl

theorem withQueue_strikeReaches (q k st) (s : State) :
    (strikeReaches k st s).withQueue q = strikeReaches k st (s.withQueue q) := by
  unfold strikeReaches
  rw [show (s.withQueue q).key k = s.key k from rfl]
  cases (s.key k).phase
  · unfold offer
    show State.withQueue q (ite _ _ (ite _ _ _)) =
      ite ((false && s.late st) = true) _ (ite ((s.keyBoardFree k && s.totalFree) = true) _ _)
    simp only [Bool.false_and, Bool.false_eq_true, if_false]
    split
    · exact withQueue_pulseKey _ _ _ _
    · rfl
  all_goals first
    | (unfold park
       show State.withQueue q (updateKey _ _ (ite _ _ _)) = updateKey _ _ (ite ((s.key k).pending.isSome = true) _ _)
       split <;> rfl)
    | (rw [withQueue_endProbe]; rfl)

theorem withQueue_releaseReaches (q k t) (s : State) :
    (releaseReaches k t s).withQueue q = releaseReaches k t (s.withQueue q) := by
  unfold releaseReaches
  rw [show (s.withQueue q).key k = s.key k from rfl, show (s.withQueue q).entryTagged k t = s.entryTagged k t from rfl]
  dsimp only
  split
  · rfl
  · split
    · rfl
    · split
      · rfl
      · split <;> rfl

theorem withQueue_changePedal (q p f) (s : State) : (changePedal p f s).withQueue q = changePedal p f (s.withQueue q) := by
  rw [changePedal_eq, changePedal_eq]
  cases p <;> rfl

/-- Handing a record to its target does not read the Fire Queue. -/
theorem withQueue_handRecord (q r) (s : State) : (handRecord r s).withQueue q = handRecord r (s.withQueue q) := by
  unfold handRecord
  cases r.kind with
  | strike k v => exact withQueue_strikeReaches _ _ _ _
  | release k => exact withQueue_releaseReaches _ _ _ _
  | pedalDown p => exact withQueue_changePedal _ _ _ _
  | pedalUp p =>
    unfold takePedalUp
    show State.withQueue q (ite _ _ _) = ite (((s.pedal p).roll && (s.pedal p).rollTag == some r.tag) = true) _ _
    split
    · exact withQueue_changePedal _ _ _ _
    · rfl

/-- Handing a record to its target does not change the Fire Queue. -/
theorem handRecord_queue (r) (s : State) : (handRecord r s).sched.queue = s.sched.queue := by
  have h := withQueue_handRecord s.sched.queue r s
  rw [show s.withQueue s.sched.queue = s from rfl] at h
  rw [← h]
  rfl

/-- Handing a record to its target takes no time. -/
theorem handRecord_playTime (r) (s : State) : (handRecord r s).playTime = s.playTime := by
  unfold State.playTime
  rw [(HandsOn.handRecord r s).clock]

/-- A record inserted behind one that is due waits until that one has been handed on (R100). -/
theorem enqueue_behind {r x : FireRecord} {rest : List FireRecord} {s : State} (h : s.sched.queue = x :: rest)
    (hx : x.fire ≤ r.fire) (hr : r.fire ≤ s.playTime) (hp : s.perf.state ≠ .paused) :
    enqueue r s = enqueue r (handRecord x (s.withQueue rest)) := by
  have hp' : (handRecord x (s.withQueue rest)).perf.state ≠ .paused := by
    rw [(HandsOn.handRecord x _).perf]; exact hp
  unfold enqueue
  dsimp only
  rw [if_pos ⟨hr, hp⟩, if_pos ⟨by rw [handRecord_playTime]; exact hr, hp'⟩, handRecord_queue]
  simp only [h, insertRecord, hx, if_true, recordsBefore, List.takeWhile_cons, decide_true, List.length_cons]
  show dispatchFirst _ (dispatchHead _) = _
  congr 1
  exact (withQueue_handRecord (insertRecord r rest) x (s.withQueue rest)).symm

end Sys2Proof.Machine
end

