-- ==== Sys2Proof/Laws/Wires.lean ====
section
/-!
SUPPORT. What the lookups of the profile, the boards, the line history and the probe record give.
-/
namespace Sys2Proof.Machine

/-- The channel of a key is its entry of the key map (R117, R139). -/
theorem keyWire_eq_some (s : State) (k : Key) (b : Board) (channel : Nat) : s.keyWire k = some (b, channel) ↔
    ∃ p, s.port.profile = some p ∧ p.keys[k].board = some b ∧ p.keys[k].channel = channel := by
  unfold State.keyWire
  cases s.port.profile with
  | none => simp
  | some p => simp

/-- The channel of a pedal is its entry of the pedal map (R86, R139). -/
theorem pedalWire_eq_some (s : State) (p : Pedal) (b : Board) (channel : Nat) : s.pedalWire p = some (b, channel) ↔
    ∃ pr, s.port.profile = some pr ∧ (pr.pedalMap p).board = some b ∧ (pr.pedalMap p).channel = channel := by
  unfold State.pedalWire
  cases s.port.profile with
  | none => simp
  | some pr => simp

/-- A key stands on the board of its channel. -/
theorem keyOnBoard_iff (s : State) (k : Key) (b : Board) :
    s.keyOnBoard k b = true ↔ ∃ channel, s.keyWire k = some (b, channel) := by
  unfold State.keyOnBoard
  cases h : s.keyWire k with
  | none => simp
  | some w => obtain ⟨w1, w2⟩ := w; simp

/-- A pedal stands on the board of its channel. -/
theorem pedalOnBoard_iff (s : State) (p : Pedal) (b : Board) :
    s.pedalOnBoard p b = true ↔ ∃ channel, s.pedalWire p = some (b, channel) := by
  unfold State.pedalOnBoard
  cases h : s.pedalWire p with
  | none => simp
  | some w => obtain ⟨w1, w2⟩ := w; simp

/-- OFF goes to each selected key that has a channel, on that channel. -/
theorem offKeys_eq (c : Key → KeyRec → Bool) (s : State) :
    offKeys c s = (List.ofFn fun k : Key =>
      if c k (s.key k) then (s.keyWire k).map fun w => (⟨w.1, w.2, .off⟩ : DriveCmd) else none).filterMap id := by
  unfold offKeys allKeys
  rw [show (List.ofFn fun k : Key => if c k (s.key k) then (s.keyWire k).map fun w => (⟨w.1, w.2, .off⟩ : DriveCmd) else none) =
    (List.ofFn (id : Key → Key)).map (fun k => if c k (s.key k) then (s.keyWire k).map fun w => ⟨w.1, w.2, .off⟩ else none)
    from by rw [List.map_ofFn]; rfl, List.filterMap_map]
  rfl

/-- A line in the history gives its recorded line time (R38, R52, R78). -/
theorem timeOf_of_mem {s : State} {line : Nat} {before after : List Stamp} {st : Stamp}
    (h : s.intake.history = before ++ st :: after) (hl : st.line = line) (hb : ∀ x ∈ before, x.line ≠ line) :
    s.timeOf line = st.time := by
  unfold State.timeOf
  rw [h, List.find?_append, List.find?_eq_none.mpr (by simpa using hb)]
  simp [hl]

/-- Probe activity (R4). -/
theorem probeActivity_iff (s : State) : s.probeActivity = true ↔
    (∃ p, s.calib.probe = some p ∧ p.busy = true) ∨ (∃ r ∈ s.sched.queue, r.tag.origin = .probe) ∨
      (∃ e ∈ s.sched.deferral, e.strike.tag.origin = .probe) ∨
      ∃ k, (∃ st, (s.key k).pending = some st ∧ st.tag.origin = .probe) ∨ (s.key k).phase = .striking ∨
        (s.key k).phase = .held := by
  unfold State.probeActivity
  simp only [Bool.or_eq_true, State.probeBusy, List.any_eq_true, KeyRec.driven, or_assoc, Option.any_eq_true, mem_allKeys,
    true_and, decide_eq_true_eq, beq_iff_eq]
  refine or_congr_right (or_congr_right (or_congr_right (exists_congr fun k => ?_)))
  rw [← or_assoc, or_comm]

end Sys2Proof.Machine
end

