-- ==== Sys2Proof/WellFormed.lean ====
section
/-!
DEFINITION. Which commands a frame can carry: the relations between operands that their types leave open. The machine
does not rely on them: every command has a next state.
-/
namespace Sys2Proof

/-- A LOAD carries a one-byte count, so at most 255 entries, and its frame at most `most` of them (R168, R181). -/
def Load.wellFormed {α : Type} (most : Nat) (l : Load α) : Bool := l.entries.length ≤ most

/-- A check on operands that passed the form check. -/
def Form.wellFormed {α : Type} (check : α → Bool) : Form α → Bool
  | .good a => check a
  | .bad => true

/-- Bit 15 of a flag set must be 0 (R180). -/
def flagSetWellFormed (set : BitVec 16) : Bool := !set.getLsbD 15

/-- The request kinds of R180 are coded 0x01 to 0x13. -/
def knownKind (kind : Byte) : Bool := 1 ≤ kind.toNat && kind.toNat ≤ 0x13

/-- What a frame can carry, command by command (R165, R168, R180, R181). -/
def Instr.wellFormed : Instr → Bool
  | .unknownRequest _ kind => !knownKind kind
  | .loadRoute _ f => f.wellFormed (Load.wellFormed 255)
  | .loadDetect _ f => f.wellFormed (Load.wellFormed 255)
  | .loadShading _ f => f.wellFormed (Load.wellFormed 255)
  | .loadCurve _ f => f.wellFormed (Load.wellFormed 255)
  | .loadVoicing _ f => f.wellFormed (Load.wellFormed 255)
  | .loadCalibration _ f => f.wellFormed (Load.wellFormed 39)
  | .loadTiming _ f => f.wellFormed (Load.wellFormed 254)
  | .loadAdaptParam _ f => f.wellFormed (Load.wellFormed 255)
  | .maskSet _ f => f.wellFormed (fun tracks => tracks.length ≤ 112)
  | .maskClear _ f => f.wellFormed (fun tracks => tracks.length ≤ 112)
  | .clear _ f => f.wellFormed flagSetWellFormed
  | .notices _ f => f.wellFormed flagSetWellFormed
  | .readTable _ f => f.wellFormed (fun t => t.count != 0)
  | .powerOnReset | .scanLine .. | .rollLinkFrameError _ | .profile .. | .start .. | .stop .. | .pause ..
  | .pausePointReached | .resume .. | .setCue .. | .clearCue .. | .clearCueAll .. | .timebaseFree ..
  | .timebaseLine .. | .loopOn .. | .loopOff .. | .pedalAssert .. | .pedalDeassert .. | .pedalInhibit ..
  | .pedalUninhibit .. | .probe .. | .adaptOn .. | .adaptOff .. | .adaptReset .. | .adaptResetAll ..
  | .adaptThaw .. | .boardEnable .. | .boardDisable .. | .readStatus .. | .readKey .. | .readKeys ..
  | .readRegulators .. | .readPedals .. | .readBoards .. | .readLoop .. | .readQueue .. | .readCounters ..
  | .readProbe .. | .resetPerformance .. | .resetFull .. | .resetFullEffect | .responseSend | .noticeSend
  | .lossTimeout | .dispatch | .pulseEnd _ | .holdLimit _ | .returnTimer _ | .engageEnd _ | .strikeReport ..
  | .restReport .. | .faultReport .. | .strayReport => true

end Sys2Proof
end

