-- ==== Sys2Proof/Tests/Slice0.lean ====
section
/-!
SUPPORT. The model's own tests: the ill-formed commands, the worked encodings and cases of the spec, one small step for
each family, and for every statement with hypotheses a state and operands that meet them (test_meets_<statement>).
-/
namespace Sys2Proof.Machine

set_option Elab.async false

/-! ### Ill-formed commands -/

theorem test_wf_unknown : (Instr.unknownRequest 7 0x13).wellFormed = false ∧ (Instr.unknownRequest 7 0x14).wellFormed := by
  decide
theorem test_wf_route : (Instr.loadRoute 7 (.good ⟨0, List.replicate 256 ⟨0, 0, 0⟩⟩)).wellFormed = false := by decide +kernel
theorem test_wf_detect : (Instr.loadDetect 7 (.good ⟨0, List.replicate 256 0⟩)).wellFormed = false := by decide +kernel
theorem test_wf_shading : (Instr.loadShading 7 (.good ⟨0, List.replicate 256 0⟩)).wellFormed = false := by decide +kernel
theorem test_wf_curve : (Instr.loadCurve 7 (.good ⟨0, List.replicate 256 0⟩)).wellFormed = false := by decide +kernel
theorem test_wf_voicing : (Instr.loadVoicing 7 (.good ⟨0, List.replicate 256 0⟩)).wellFormed = false := by decide +kernel
theorem test_wf_calibration :
    (Instr.loadCalibration 7 (.good ⟨0, List.replicate 40 ⟨⟨0, 0, 0⟩, ⟨0, 0, 0⟩, ⟨0, 0, 0⟩, ⟨0, 0, 0⟩, 0⟩⟩)).wellFormed = false := by
  decide +kernel
theorem test_wf_timing : (Instr.loadTiming 7 (.good ⟨0, List.replicate 255 0⟩)).wellFormed = false := by decide +kernel
theorem test_wf_adaptParam : (Instr.loadAdaptParam 7 (.good ⟨0, List.replicate 256 0⟩)).wellFormed = false := by
  decide +kernel
theorem test_wf_maskSet : (Instr.maskSet 7 (.good (List.replicate 113 0))).wellFormed = false := by decide +kernel
theorem test_wf_maskClear : (Instr.maskClear 7 (.good (List.replicate 113 0))).wellFormed = false := by decide +kernel
theorem test_wf_clear : (Instr.clear 7 (.good 0x8000)).wellFormed = false := by decide
theorem test_wf_notices : (Instr.notices 7 (.good 0x8000)).wellFormed = false := by decide
theorem test_wf_readTable : (Instr.readTable 7 (.good ⟨1, 0, 0⟩)).wellFormed = false := by decide

/-! ### Frames (chapter 12) -/

/-- The check value of R179: the bytes 0x31 to 0x39. -/
theorem test_crc : crc16 [0x31, 0x32, 0x33, 0x34, 0x35, 0x36, 0x37, 0x38, 0x39] = 0x29B1 := by decide +kernel

/-- The worked SET_CUE of R180, behind a byte that is no SYNC. -/
theorem test_frame_setCue :
    assembleRoll (0x00 :: 0xA5 :: [0x10, 0x00, 0x05, 0x2A, 0x08, 0x00, 0x14, 0x50] ++
        crcBytes [0x10, 0x00, 0x05, 0x2A, 0x08, 0x00, 0x14, 0x50]) =
      .frame (.setCue 0x2A (.good 5200)) [] ([0x10, 0x00, 0x05, 0x2A, 0x08, 0x00, 0x14, 0x50] ++
        crcBytes [0x10, 0x00, 0x05, 0x2A, 0x08, 0x00, 0x14, 0x50]) := by
  decide +kernel

/-- A LENGTH above 1024 fails at once (R165). -/
theorem test_frame_length : assembleRoll [0xA5, 0x10, 0x04, 0x01] =
    .frame (.rollLinkFrameError .length) [0x10, 0x04, 0x01] [0x10, 0x04, 0x01] := by
  decide +kernel

/-- PULSE of 4266 µs on channel 6 of board 1, and a THERMAL fault from board 2 (R183). -/
theorem test_frames_action :
    DriveCmd.bytes ⟨1, 6, .pulse 4266⟩ = [0x5A, 0x11, 0x06, 0x10, 0xAA] ++ crcBytes [0x11, 0x06, 0x10, 0xAA] ∧
      assembleAction ([0x5A, 0x2A, 0x07, 0x00, 0x02] ++ crcBytes [0x2A, 0x07, 0x00, 0x02]) =
        .frame (.faultReport 2 .thermal) [] ([0x2A, 0x07, 0x00, 0x02] ++ crcBytes [0x2A, 0x07, 0x00, 0x02]) := by
  decide +kernel

/-- Route entries of R181: NOTE of key 45, and the TREBLE ACCENT bit masked. -/
theorem test_route_entries :
    routeEntry? ⟨0x01, 0x2D, 0x00⟩ = some ⟨.note 44, false⟩ ∧
      routeEntry? ⟨0x03, 0x15, 0x01⟩ = some ⟨.expr .treble .accent, true⟩ ∧ routeEntry? ⟨0x01, 0, 0⟩ = none ∧
      routeEntry? ⟨0x01, 89, 0⟩ = none := by
  decide

/-! ### Worked cases -/

/-- Chapter 5: intensity 349 of key 52, W 4266, Lead 22,633, Lead_eff 22,283. -/
theorem test_worked_treble :
    CalRec.widthLead ⟨⟨120, 1800, 31000⟩, ⟨380, 4600, 21500⟩, ⟨700, 8300, 15200⟩, ⟨1000, 12500, 11000⟩, 8000⟩ 349 =
      (4266, 22633) ∧ effectiveLead 22633 (-350) = 22283 ∧ softScaled 466 192 = 349 := by
  decide

/-- Chapter 5: intensity 830 on the default record, W 10,057, Lead_eff 12,123. -/
theorem test_worked_bass : CalRec.widthLead defaultCalRec 830 = (10057, 11943) ∧ effectiveLead 11943 180 = 12123 := by
  decide

/-- Chapter 2: one acquisition step, and the gap after it. -/
theorem test_worked_loop :
    let l : LoopRec := { defaultLoop with mode := .acquiring, tLoop := 5000000, treatment := .measure }
    let l' := measureLine 1000 5001012 0 l
    (l'.tLoop, l'.pEst, l'.goodRun) = (5001003, 256192, 1) ∧ (measureLine 1000 5000988 0 l).tLoop = 5000997 ∧
      (measureLine 1000 5004040 2 l').tLoop = 5004012 ∧ (measureLine 1000 5004040 2 l').pEst = 256784 ∧
      (measureLine 1000 5004040 2 l').goodRun = 0 ∧ (measureLine 1000 5012000 10 l').tLoop = 5012003 := by
  decide

/-- Chapter 10: the two reports on key 52. -/
theorem test_worked_corrections : correctedBy (-350) 617 4 = -312 ∧ correctedBy (-312) (-617) 4 = -351 := by decide

/-- R42: the measured shift is a truncating division. -/
theorem test_measured_shift : measuredShift 127 62 64 = 0 ∧ measuredShift 127 60 64 = -1 ∧ measuredShift 127 127 127 = 8 := by
  decide

/-! ### Small states -/

/-- The state an outcome leads to. -/
def after (o : Out) : State :=
  match o with
  | .next t => t
  | .fault r => nomatch r
  | .refused _ => State.reset

/-- Key 1 on channel 0 of board 0 with a sensor, key 2 on channel 1 without, SUSTAIN on channel 20, one pulse at a time. -/
def testProfile : Profile where
  keys := Vector.ofFn fun k =>
    if k.val = 0 then ⟨some 0, 0, true⟩ else if k.val = 1 then ⟨some 0, 1, false⟩ else ⟨none, 0, false⟩
  sustain := ⟨some 0, 20⟩
  soft := ⟨none, 0⟩
  mTot := 1
  holdLimit := 20
  returnTimeout := 150
  returnTime := 80

/-- Reset, with that profile written and board 0 in service. -/
def wired : State :=
  { State.reset with
    port := { boards := #v[⟨true, .enabled, none, 0, some ⟨1, 48, 20000, 96⟩⟩, ⟨false, .disabled .absent, none, 0, none⟩,
                           ⟨false, .disabled .absent, none, 0, none⟩, ⟨false, .disabled .absent, none, 0, none⟩]
              profile := some testProfile }
    keys := Vector.ofFn fun k => if k.val < 2 then { defaultKey with phase := .resting } else defaultKey }

/-- `wired` with key 1's record changed. -/
def keyed (f : KeyRec → KeyRec) : State := updateKey 0 f wired

/-- `wired` in a performance state. -/
def inState (p : PerfState) : State := { wired with perf := { wired.perf with state := p } }

/-- A strike, and a record that carries it. -/
def testVals : StrikeVals := ⟨500, 6000, 15000, 0⟩
def testTag : Tag := ⟨.roll, 5⟩
def testStrike : Strike := ⟨testTag, testVals, 0, false⟩
def testRecord : FireRecord := ⟨.strike 0 testVals, testTag, 0⟩

/-- `wired` with the slot of key 1 in flight. -/
def striking : State :=
  pulseKey 0 testStrike wired

/-- `wired` with key 2 DEFERRED while the total is free. -/
def waitingStrike : State := joinDeferral 1 testStrike wired

/-- `wired` with a busy probe of key 1. -/
def probing : State := beginProbe 0 500 30 wired

/-- PLAYING in FREE base after line 5. -/
def playingLine : State :=
  { inState .playing with intake := { last := some 5, history := [⟨5, 100⟩] } }

theorem reset_ready : State.reset.ready := by unfold State.ready; decide +kernel
theorem reset_settled : State.reset.settled := by unfold State.settled; decide +kernel
theorem wired_ready : wired.ready := by unfold State.ready; decide +kernel
theorem wired_settled : wired.settled := by unfold State.settled; decide +kernel
theorem inState_settled : (inState .playing).settled ∧ (inState .paused).settled ∧ (inState .stopped).settled ∧
    (inState .armed).settled := by
  unfold State.settled; decide +kernel

theorem small_states_ready :
    striking.ready ∧ striking.settled ∧ waitingStrike.ready ∧ waitingStrike.settled ∧ probing.ready ∧ probing.settled ∧
      (inState .armed).ready ∧ (inState .playing).ready ∧ (inState .paused).ready ∧ playingLine.ready ∧
      playingLine.settled := by
  unfold State.ready State.settled; decide +kernel

/-! ### Steps -/

theorem test_step_front : step { State.reset with pending := [.strayReport] } = exec .strayReport State.reset := rfl

theorem test_step_tick : idleEvents State.reset = [.tick] ∧ (after (step State.reset)).clock.actionTime = 1 := by
  decide +kernel

theorem test_profile_once : (after (exec (.profile 7 .bad) wired)).mgmt.outbound = [.response 7 .invalid []] := by
  decide +kernel

theorem test_start_armed : (after (exec (.start 7 (.good ())) wired)).perf.state = .armed := by decide +kernel

theorem test_first_line_plays : (after (exec (.scanLine 9 (Vector.replicate 128 0)) (inState .armed))).perf.state = .playing ∧
    (after (exec (.scanLine 9 (Vector.replicate 128 0)) (inState .armed))).intake.last = some 9 := by
  decide +kernel

theorem test_strike_pulses : striking.link.sentDrive = [⟨0, 0, .pulse 6000⟩] ∧ striking.sched.total = 1 ∧
    (strikeReaches 1 testStrike striking).sched.deferral = [⟨1, testStrike⟩] := by
  decide +kernel

theorem test_pulse_end_holds :
    let t := after (exec (.pulseEnd 0) { striking with clock := { striking.clock with actionTime := 6000 } })
    (t.key 0).phase = .held ∧ (t.key 0).holdLimit = some 20006000 ∧ t.sched.total = 0 ∧
      t.link.sentDrive = [⟨0, 0, .pulse 6000⟩, ⟨0, 0, .hold 48⟩] := by
  decide +kernel

theorem test_report_corrects : ((after (exec (.strikeReport 0 0 15100) striking)).key 0).correction = 6 := by
  decide +kernel

theorem test_rest_touches : (after (exec (.strikeReport 0 0 100) wired)).flag .touch = true ∧
    (after (exec (.strikeReport 0 1 100) wired)).flag .touch = false := by
  decide +kernel

theorem test_disable_offline : ((after (exec (.boardDisable 7 (.good 0)) striking)).key 0).phase = .offline ∧
    (after (exec (.boardDisable 7 (.good 0)) striking)).sched.total = 0 := by
  decide +kernel

theorem test_pedal_engages : (after (exec (.pedalAssert 7 (.good .sustain)) wired)).pedals.sustain.phase = .engaging ∧
    (after (exec (.pedalAssert 7 (.good .soft)) wired)).pedals.soft.phase = .up := by
  decide +kernel

theorem test_probe_pulses : probing.link.sentDrive.length = 1 ∧ probing.probeBusy = true ∧ probing.sched.queue.length = 1 := by
  decide +kernel

theorem test_full_reset :
    let t := after (exec .responseSend (after (exec (.resetFull 7 (.good ())) striking)))
    t.mgmt.fullReset = .ready ∧ (after (exec .resetFullEffect t)).port.profile = none ∧
      (after (exec .resetFullEffect t)).link.sentDrive = [⟨0, 0, .pulse 6000⟩, ⟨0, 0, .off⟩] := by
  decide +kernel

/-- The cut copies the observed state of a DEFERRED key into its snapshot (log 15). -/
theorem test_cut_snapshot :
    let s := joinDeferral 0 testStrike (keyed fun r => { r with observed := .down })
    (s.key 0).snapshot = .up ∧ ((cut s).key 0).phase = .resting ∧ ((cut s).key 0).snapshot = .down := by
  decide +kernel

/-- A pending switch in READ LOOP, and SOFT mapped to NONE at the end of READ PEDALS (log 8). -/
theorem test_read_choices :
    let switching := { wired with clock := { wired.clock with switch := some .line } }
    (loopData wired).take 3 = [0, 0, 0] ∧ (loopData switching).take 3 = [0, 1, 1] ∧
      (pedalData wired .sustain).drop 44 = [1, 0, 0, 0, 20] ∧ (pedalData wired .soft).drop 44 = [0, 0, 0, 0, 0] := by
  decide +kernel

/-- A probe result as READ PROBE sends it: a measured lead, NONE, and none while the probe is busy (R158, R182). -/
theorem test_probe_result :
    let ended (r : ProbeResult) : State := { probing with calib := { probing.calib with
      probe := probing.calib.probe.map fun p => { p with busy := false, result := some r } } }
    let sent (s : State) : List Byte := ((probeData s).drop 27).take 4
    sent (ended (.measured 0x1234)) = [1, 0, 0x12, 0x34] ∧ sent (ended .none) = [1, 1, 0, 0] ∧ sent probing = [0, 0, 0, 0] := by
  decide +kernel

/-! ### States and operands that meet the statements' hypotheses, clause by clause

Where a statement asks that a state be ready and settled, reset_ready, reset_settled, wired_ready, wired_settled and
small_states_ready show it of the states used. -/

theorem test_meets_StepRunsTheFrontCommand : ({ State.reset with pending := [.strayReport] } : State).pending = [.strayReport] :=
  rfl

theorem test_meets_EmptyQueueTakesAnEventOfItsOwn : State.reset.pending = [] ∧ idleEvents State.reset = [.tick] := by
  decide +kernel

/-- A microsecond below the largest action time, in PAUSED and outside it, and one at it. -/
theorem test_meets_EmptyQueueTakesAnEventOfItsOwn_tick :
    let last := { wired with clock := { wired.clock with actionTime := 281474976710655 } }
    (inState .paused).clock.actionTime < 281474976710655 ∧ (inState .paused).perf.state = .paused ∧
      (inState .playing).perf.state ≠ .paused ∧
      (inState .playing).clock.pausedTotal ≤ (inState .playing).clock.actionTime ∧
      281474976710655 ≤ last.clock.actionTime ∧ (tick (inState .playing)).playTime = 1 ∧
      (tick (inState .paused)).clock.actionTime = 1 ∧ (tick (inState .paused)).playTime = 0 := by
  decide +kernel

/-- For each timed event, a state in which it is due and no microsecond passes. -/
theorem test_meets_EmptyQueueTakesAnEventOfItsOwn_due :
    let own (c : Instr) (s : State) : Bool := (idleEvents s).contains (.own c) && !(idleEvents s).contains .tick
    let playing := inState .playing
    let pedal : State := updatePedal .sustain (fun r => { r with phase := .engaging, engageEnd := some 0 }) wired
    own .pausePointReached { playing with perf := { playing.perf with pausePoint := some 0 } } ∧
      own .lossTimeout { playing with perf := { playing.perf with lossTimer := some 0 } } ∧
      own .dispatch { wired with sched := { wired.sched with queue := [testRecord] } } ∧
      own (.pulseEnd 0) (keyed fun r => { r with phase := .striking, pulseEnd := some 0 }) ∧
      own (.holdLimit 0) (keyed fun r => { r with phase := .held, holdLimit := some 0 }) ∧
      own (.returnTimer 0) (keyed fun r => { r with phase := .releasing, returnTimer := some (0, .fixed) }) ∧
      own (.engageEnd .sustain) pedal := by
  decide +kernel

/-- A microsecond early nothing is due and one passes; in PAUSED the head of the queue is not due. -/
theorem test_meets_EmptyQueueTakesAnEventOfItsOwn_notDue :
    let queued (s : State) (fire : Nat) : State := { s with sched := { s.sched with queue := [{ testRecord with fire }] } }
    idleEvents (keyed fun r => { r with phase := .held, holdLimit := some 1 }) = [.tick] ∧
      idleEvents (keyed fun r => { r with phase := .striking, holdLimit := some 0 }) = [.tick] ∧
      idleEvents (queued wired 1) = [.tick] ∧ idleEvents (queued (inState .paused) 0) = [.tick] := by
  decide +kernel

/-- A response, a notice, a frame that waited and a received frame of each link; RESET FULL, answered and ready. -/
theorem test_meets_EmptyQueueTakesAnEventOfItsOwn_frames :
    let pause : List Byte := [0x10, 0, 2, 7, 3]
    let received (roll action : List Byte) : State :=
      { wired with link := { wired.link with rollRx := roll, actionRx := action } }
    let waits (due : Nat) : State :=
      { wired with mgmt := { wired.mgmt with
          waiting := [.pause 7 (.good ())], outbound := List.replicate due (.response 1 .ok []) } }
    let reset (r : FullReset) : State := { waits 0 with mgmt := { (waits 0).mgmt with fullReset := r } }
    idleEvents (wired.nowDue [.response 7 .ok []]) = [.own .responseSend, .tick] ∧
      idleEvents (wired.nowDue [.notice]) = [.own .noticeSend, .tick] ∧
      idleEvents (waits 0) = [.waiting, .tick] ∧ idleEvents (waits 3) = [.own .responseSend, .waiting, .tick] ∧
      idleEvents (waits 4) = [.own .responseSend, .tick] ∧
      idleEvents (received (0xA5 :: pause ++ crcBytes pause) []) = [.rollFrame, .tick] ∧
      idleEvents (received (0xA5 :: pause) []) = [.tick] ∧
      idleEvents (received [] ([0x5A, 0x18, 3, 0, 9] ++ crcBytes [0x18, 3, 0, 9])) = [.actionFrame, .tick] ∧
      idleEvents (reset .responding) = [.tick] ∧ idleEvents (reset .ready) = [.own .resetFullEffect] := by
  decide +kernel

theorem test_meets_EnteringPausedReleasesTheKeys : (inState .paused).perf.state = .paused := rfl

theorem test_meets_MalformedRequestIsInvalid :
    State.reset.ready ∧ State.reset.settled ∧ malformedId (.start 7 .bad) = some 7 :=
  ⟨reset_ready, reset_settled, rfl⟩

/-- A malformed PROFILE with a profile written (log 12). -/
theorem test_meets_MalformedRequestIsInvalid_profile :
    wired.port.profile ≠ none ∧ malformedId (.profile 7 .bad) = some 7 := by
  decide +kernel

/-- Requests by their bytes, each with a form that is bad. -/
theorem test_meets_UnknownKindIsAnsweredUnknown_kinds :
    let bad (c : Instr) : Bool := malformedId c == some 7
    parseKind 7 0x14 [] = .unknownRequest 7 0x14 ∧ parseKind 7 0x03 [1, 2, 0, 111] = .maskClear 7 (.good [0, 111]) ∧
      bad (parseKind 7 0x03 [0, 2, 0]) ∧ parseKind 7 0x08 [0, 1, 2] = .setCue 7 (.good 258) ∧
      parseKind 7 0x09 [1, 0, 0, 0] = .clearCueAll 7 (.good ()) ∧ bad (parseKind 7 0x09 [1, 0, 0, 1]) ∧
      parseKind 7 0x0C [1, 3] = .pedalUninhibit 7 (.good .soft) ∧ bad (parseKind 7 0x0C [2, 0]) ∧
      parseKind 7 0x0D [88, 1, 0, 2, 0] = .probe 7 (.good ⟨88, 256, 512⟩) ∧ bad (parseKind 7 0x0D [88, 1, 0, 2]) ∧
      parseKind 7 0x0E [4, 88] = .adaptThaw 7 (.good 88) ∧ bad (parseKind 7 0x0E [3, 1]) ∧
      parseKind 7 0x11 [0x7F, 0xFF] = .clear 7 (.good 0x7FFF) ∧ bad (parseKind 7 0x12 [0x80, 0]) ∧
      parseKind 7 0x10 [9, 6, 0, 39, 255] = .readTable 7 (.good ⟨6, 39, 255⟩) ∧ bad (parseKind 7 0x10 [9, 6, 0, 39, 0]) ∧
      bad (parseKind 7 0x10 [8, 2]) ∧ bad (parseKind 7 0x10 [11]) ∧ bad (parseKind 7 0x13 [2]) ∧ bad (parseKind 7 0x02 [9]) := by
  decide +kernel

/-- LOADs by their bytes, and one whose bytes do not amount to its count. -/
theorem test_meets_UnknownKindIsAnsweredUnknown_loads :
    parseKind 7 0x02 [1, 0, 40, 1, 0x01, 0x2D, 0x00] = .loadRoute 7 (.good ⟨40, [⟨1, 45, 0⟩]⟩) ∧
      parseKind 7 0x02 [5, 0, 0, 1, 0xFE, 0xD4] = .loadVoicing 7 (.good ⟨0, [-300]⟩) ∧
      parseKind 7 0x02 [7, 0, 1, 1, 0, 3, 0x0D, 0x40] = .loadTiming 7 (.good ⟨1, [200000]⟩) ∧
      parseKind 7 0x02 [2, 0, 0, 0] = .loadDetect 7 (.good ⟨0, []⟩) ∧
      parseKind 7 0x02 [3, 0, 0, 1, 1] = .loadShading 7 .bad ∧ parseKind 7 0x02 [6, 0, 0, 1, 1] = .loadCalibration 7 .bad := by
  decide +kernel

/-- The bytes of a PROFILE: key 1 on channel 3 of board 0 with a sensor, nothing else wired; `set` and `mB` are board 0's stated
set and M_b byte, and `key` is key 1's channel byte. -/
def profileBytes (key set mB : Byte) : List Byte :=
  [0, key] ++ (List.replicate 89 [0xFF, 0]).flatten ++ [1, set, mB, 0, 0, 0, 0] ++ List.replicate 21 0 ++ List.replicate 7 0

/-- A PROFILE by its bytes; a bit between channel and sensor, a value not stated, a stated set above 15, and a byte short. -/
theorem test_meets_UnknownKindIsAnsweredUnknown_profile :
    let read (bytes : List Byte) : Option RawProfile :=
      match parseKind 7 0x01 bytes with
      | .profile 7 (.good r) => some r
      | _ => none
    ((read (profileBytes 0x83 1 9)).map fun r => (r.keys[0], r.boards[0], r.soft)) =
        some (⟨0, 3, true⟩, ⟨true, some 9, none, none, none⟩, ⟨0xFF, 0⟩) ∧
      read (profileBytes 0xA3 1 9) = none ∧ read (profileBytes 0x83 0 9) = none ∧ read (profileBytes 0x83 17 9) = none ∧
      read ((profileBytes 0x83 1 9).drop 1) = none := by
  decide +kernel

theorem test_meets_FailedFrameIsCountedAndFlagged :
    let s := State.reset.nowDue (List.replicate 4 (.response 1 .ok []))
    s.settled ∧ isRequest (.start 7 (.good ())) = true ∧ 4 ≤ s.responsesDue := by
  unfold State.settled; decide +kernel

/-- A Roll Link frame behind noise, for each check and each kind; `crc` is the two bytes that close it. -/
theorem test_meets_FailedFrameIsCountedAndFlagged_rollBytes :
    let crc (kind l1 l0 : Byte) (payload : List Byte) := crcBytes (kind :: l1 :: l0 :: payload)
    let cells : Vector Byte 128 := Vector.replicate 128 0
    (0xA5#8 ∉ [0x00#8, 0x5A#8]) ∧ 1024 < (4#8).toNat * 256 + (1#8).toNat ∧ (4#8).toNat * 256 + (0#8).toNat ≤ 1024 ∧
      ([7#8, 3#8] : List Byte).length = (0#8).toNat * 256 + (2#8).toNat ∧
      (0 :: 0 :: 1 :: cells.toList).length = (0#8).toNat * 256 + (131#8).toNat ∧
      (crc 0x10 0 2 [7, 3]).length = 2 ∧ crc 0x10 0 2 [7, 3] ≠ [0, 0] ∧ (crc 0x55 0 2 [7, 3]).length = 2 ∧
      (crc 0x01 0 131 (0 :: 0 :: 1 :: cells.toList)).length = 2 ∧ (crc 0x01 0 2 [7, 3]).length = 2 ∧
      (crc 0x10 0 1 [7]).length = 2 := by
  decide +kernel

/-- Received bytes whose first frame fails a check, is a request that finds four responses due, and is taken. -/
theorem test_meets_FailedFrameIsCountedAndFlagged_received :
    let pause : List Byte := [0x10, 0, 2, 7, 3]
    let frame := pause ++ crcBytes pause
    let received (bytes : List Byte) : State := { wired with link := { wired.link with rollRx := bytes } }
    let full := (received (0xA5 :: frame)).nowDue (List.replicate 4 (.response 1 .ok []))
    assembleRoll (received (0xA5 :: pause ++ [0, 0])).link.rollRx =
        .frame (.rollLinkFrameError .crc) [] (pause ++ [0, 0]) ∧
      assembleRoll full.link.rollRx = .frame (parseKind 7 3 []) [] frame ∧ isRequest (parseKind 7 3 []) = true ∧
      4 ≤ full.responsesDue ∧ wired.responsesDue < 4 := by
  decide +kernel

/-- Action Link frames: each kind, each fault reason, and what is no frame of a board. -/
theorem test_meets_FailedFrameIsCountedAndFlagged_actionBytes :
    let frame (head p0 : Byte) : List Byte := 0x00 :: 0x5A :: [head, 3, 0, p0] ++ crcBytes [head, 3, 0, p0]
    let isStray (bytes : List Byte) : Bool :=
      match assembleAction bytes with
      | .frame c _ _ => c == .strayReport
      | _ => false
    (0x5A#8 ∉ [0x00#8, 0xA5#8]) ∧ (crcBytes [0x18, 3, 0, 9]).length = 2 ∧ (0x18#8).toNat % 16 = 8 ∧
      (0x19#8).toNat % 16 = 9 ∧ (0x1A#8).toNat % 16 = 10 ∧ (0x17#8).toNat % 16 < 8 ∧ 10 < (0x1B#8).toNat % 16 ∧
      isStray (frame 0x17 1) ∧ isStray (frame 0x1B 1) ∧ isStray (frame 0x1A 0) ∧ isStray (frame 0x1A 4) ∧
      isStray [0x5A, 0x18, 3, 0, 9, 0, 0] := by
  decide +kernel

/-- Bytes that do not yet make a frame, and frames of boards that are discarded and taken. -/
theorem test_meets_FailedFrameIsCountedAndFlagged_more :
    assembleRoll [0xA5, 0x10, 0, 2, 7, 3, 0] = .more ∧ assembleAction [0x5A, 0x18, 3, 0, 9, 0] = .more ∧
      wired.discards (.restReport 0 0) = false ∧ wired.discards (.restReport 1 0) = true ∧
      wired.discards (.faultReport 0 .supply) = false ∧ wired.discards (.faultReport 4 .supply) = true := by
  decide +kernel

theorem test_meets_InboundFramesWaitForResetFull :
    ({ State.reset.mgmt with fullReset := .responding } : Management).fullReset ≠ .none ∧
      ({ State.reset.mgmt with waiting := [.strayReport] } : Management).waiting ≠ [] ∧
      isRequest (.start 7 (.good ())) = true ∧ State.reset.responsesDue < 4 := by
  decide

/-- A waiting request that can be taken, and one that finds four responses due. -/
theorem test_meets_InboundFramesWaitForResetFull_taken :
    let s := { State.reset with mgmt := { State.reset.mgmt with waiting := [.pause 7 (.good ())] } }
    let full := s.nowDue (List.replicate 4 (.response 1 .ok []))
    s.mgmt.waiting = .pause 7 (.good ()) :: [] ∧ s.mgmt.fullReset = .none ∧ s.responsesDue < 4 ∧
      IdleEvent.waiting ∈ idleEvents s ∧ isRequest (.pause 7 (.good ())) = true ∧ ¬full.responsesDue < 4 ∧
      IdleEvent.waiting ∉ idleEvents full := by
  decide +kernel

theorem test_meets_StartPreparesAFreshRoll :
    (wired.perf.state = .stopped ∧ wired.port.profile ≠ none ∧ wired.probeBusy = false) ∧
      State.reset.port.profile = none ∧ probing.probeBusy = true ∧ (inState .armed).perf.state ≠ .stopped := by
  decide +kernel

theorem test_meets_StopCutsThePerformance :
    wired.probeActivity = false ∧ probing.probeActivity = true ∧ (inState .paused).perf.state ≠ .stopped := by
  decide +kernel

/-- The loss timer at its end, and one microsecond before it. -/
theorem test_meets_LossStopsThePerformance :
    let s (t : Nat) := { inState .playing with perf := { (inState .playing).perf with lossTimer := some t } }
    (s 0).settled ∧ (s 0).perf.state = .playing ∧ (s 0).reached (s 0).perf.lossTimer = true ∧
      (s 1).reached (s 1).perf.lossTimer = false := by
  unfold State.settled; decide +kernel

/-- The pause point reached, and one microsecond away. -/
theorem test_meets_PauseEntersPaused :
    let s (t : Nat) := { inState .playing with perf := { (inState .playing).perf with pausePoint := some t } }
    (s 0).settled ∧ (s 0).ready ∧ (s 0).perf.state = .playing ∧ (s 0).perf.pausePoint = some 0 ∧
      0 ≤ (s 0).playTime ∧ (s 1).settled ∧ (s 1).playTime < 1 ∧ wired.perf.pausePoint = none ∧
      wired.perf.state ≠ .playing := by
  unfold State.settled State.ready; decide +kernel

theorem test_meets_ResumePlaysOn :
    (inState .paused).perf.state = .paused ∧ (inState .paused).sched.deferral = [] ∧
      (∀ k, ((inState .paused).key k).phase = .resting → ((inState .paused).key k).pending = none) ∧
      wired.perf.state ≠ .paused := by
  decide +kernel

/-- Two RESTING keys with pending strikes, of equal fire times: they join in ascending key number. -/
theorem test_meets_ResumePlaysOn_joins :
    let s := mapKeys (fun k r => if k.val < 2 then { r with pending := some testStrike } else r) (inState .paused)
    (s.key 0).phase = .resting ∧ (s.key 1).pending = some testStrike ∧
      (joinPending s).sched.deferral = [⟨0, testStrike⟩, ⟨1, testStrike⟩] ∧ ((joinPending s).key 0).phase = .deferred := by
  decide +kernel

theorem test_meets_CueRequestsEditTheCueList :
    let full := { State.reset.perf with cues := [1, 2, 3, 4, 5, 6, 7, 8] }
    8 ≤ full.cues.length ∧ 9 ∉ full.cues ∧ ¬8 ≤ (full.cues.drop 1).length ∧ 1 ∉ full.cues.drop 1 := by
  decide

theorem test_meets_ResetFullWaitsForItsResponse :
    State.reset.mgmt.fullReset ≠ .ready ∧ ({ State.reset.mgmt with fullReset := .ready } : Management).fullReset = .ready := by
  decide

theorem test_meets_DueFramesLeaveInOrder :
    (State.reset.nowDue [.response 1 .ok [], .notice]).mgmt.outbound = .response 1 .ok [] :: [.notice] ∧
      (State.reset.nowDue [.notice]).mgmt.outbound = .notice :: [] ∧
      (∀ id r data rest, State.reset.mgmt.outbound ≠ .response id r data :: rest) ∧
      ∀ rest, State.reset.mgmt.outbound ≠ .notice :: rest :=
  ⟨rfl, rfl, (fun _ _ _ _ h => (List.cons_ne_nil _ _ h.symm).elim), (fun _ h => (List.cons_ne_nil _ _ h.symm).elim)⟩

/-- The bytes of a response, of a notice and of each drive command. -/
theorem test_meets_DueFramesLeaveInOrder_bytes :
    (SentFrame.response 0x2A .once [7]).bytes =
        [0xA5, 0x20, 0, 3, 0x2A, 4, 7] ++ crcBytes [0x20, 0, 3, 0x2A, 4, 7] ∧
      (SentFrame.notice 0x0102 .draining .ended 258).bytes =
        [0xA5, 0x21, 0, 10, 1, 2, 4, 2, 0, 0, 0, 0, 1, 2] ++ crcBytes [0x21, 0, 10, 1, 2, 4, 2, 0, 0, 0, 0, 1, 2] ∧
      DriveCmd.bytes ⟨3, 23, .hold 48⟩ = [0x5A, 0x32, 23, 0, 48] ++ crcBytes [0x32, 23, 0, 48] ∧
      DriveCmd.bytes ⟨0, 0, .off⟩ = [0x5A, 0x03, 0, 0, 0] ++ crcBytes [0x03, 0, 0, 0] := by
  decide +kernel

theorem test_meets_LoopRequestsStartAndStopTheLoop :
    State.reset.clock.loop.locked = true → State.reset.clock.loop.mode = .tracking := by
  decide

/-- The first line, a line in FREE base, one in LINE base and one after RESUME. -/
theorem test_meets_LinesAreStampedByTheTimeBase :
    let line (t : Treatment) : LineClock :=
      { State.reset.clock with base := .line, loop := { defaultLoop with mode := .tracking, treatment := t } }
    (inState .armed).perf.state = .armed ∧ playingLine.perf.state ≠ .armed ∧
      playingLine.intake.history = [] ++ [⟨5, 100⟩] ∧ playingLine.clock.base = .free ∧
      (line .measure).loop.treatment ≠ .reseed ∧ (line .reseed).loop.treatment = .reseed ∧
      (line .measure).loop.mode ≠ .off := by
  decide +kernel

/-- PLAYING after line 5 with a running loop that was locked. -/
def looping (mode : LoopMode) (treatment : Treatment) : State :=
  { playingLine with clock := { playingLine.clock with
      loop := { defaultLoop with mode := mode, treatment := treatment, locked := mode = .tracking } } }

/-- One state for each treatment of the loop, a switch to LINE, a line after a gap of 8 and one after a gap of 9. -/
theorem test_meets_LinesAreStampedByTheTimeBase_loop :
    let toLine := { looping .tracking .measure with clock := { (looping .tracking .measure).clock with switch := some .line } }
    let first := { looping .acquiring .seed with perf := { playingLine.perf with state := .armed } }
    (¬((looping .acquiring .seed).perf.state = .armed ∨ (looping .acquiring .seed).intake.history = []) ∧
        (looping .acquiring .seed).clock.loop.mode ≠ .off ∧ (looping .acquiring .seed).clock.loop.treatment = .seed) ∧
      (¬((looping .tracking .reseed).perf.state = .armed ∨ (looping .tracking .reseed).intake.history = []) ∧
        (looping .tracking .reseed).clock.loop.mode ≠ .off ∧ (looping .tracking .reseed).clock.loop.treatment = .reseed) ∧
      toLine.clock.switch = some .line ∧ (first.perf.state = .armed ∧ first.clock.loop.mode ≠ .off) ∧
      ¬8 < 14 - 5 - 1 ∧ 8 < 15 - 5 - 1 ∧ (stampLine 15 playingLine).counter .gapEvents = 1 ∧
      (stampLine 14 playingLine).counter .gapEvents = 0 := by
  decide +kernel

/-- A switch line: the loop takes it as any MEASURE line, and then the stamped time as its phase. -/
theorem test_meets_MeasuredLinesMoveTheLoop_switch :
    let s := looping .tracking .measure
    let toLine := { s with clock := { s.clock with switch := some .line } }
    toLine.perf.state ≠ .armed ∧ toLine.intake.history = [] ++ [⟨5, 100⟩] ∧ toLine.clock.switch = some .line ∧
      toLine.clock.loop.treatment = .measure ∧ (stampLine 6 toLine).clock.base = .line ∧
      (stampLine 6 toLine).clock.loop.tLoop = 1100 ∧ (stampLine 6 s).clock.loop.tLoop ≠ 1100 := by
  decide +kernel

/-- One state with a running loop, the treatment MEASURE and a line history, in each running mode; lines 14 and 15 follow a
gap of 8 and one of 9. -/
theorem test_meets_MeasuredLinesMoveTheLoop (mode : LoopMode) (h : mode ≠ .off) :
    let s := looping mode .measure
    s.perf.state ≠ .armed ∧ s.intake.history = [] ++ [⟨5, 100⟩] ∧ s.clock.switch = none ∧ s.clock.loop.mode ≠ .off ∧
      s.clock.loop.mode = mode ∧ s.clock.loop.treatment = .measure ∧ 14 - 5 - 1 ≤ 8 ∧ 8 < 15 - 5 - 1 := by
  cases mode with
  | off => exact absurd rfl h
  | acquiring => decide +kernel
  | tracking => decide +kernel

/-- The gap of 9 unlocks the loop: LOCK_CHANGE. -/
theorem test_gap_unlocks :
    (stampLine 15 (looping .tracking .measure)).clock.loop.locked = false ∧
      (stampLine 15 (looping .tracking .measure)).flag .lockChange = true := by
  decide +kernel

theorem test_meets_RefusedLinesAreOnlyCounted :
    (playingLine.perf.state = .playing ∧ playingLine.intake.last = some 5 ∧ (5#24).toNat ≤ 5) ∧
      (inState .paused).mgmt.fullReset = .none ∧ (inState .draining).mgmt.waiting = [] ∧ wired.perf.state = .stopped := by
  decide +kernel

/-- A DRAINING state that a line finds settled: key 1 still sounds. -/
theorem test_meets_RefusedLinesAreOnlyCounted_draining :
    let s := { striking with perf := { striking.perf with state := .draining } }
    s.settled ∧ s.perf.state = .draining := by
  unfold State.settled; decide +kernel

theorem test_meets_AcceptedLinesAreHandedOn :
    (inState .armed).perf.state = .armed ∧ playingLine.perf.state = .playing ∧
      ∀ last, playingLine.intake.last = some last → last < (6#24).toNat := by
  refine ⟨by decide +kernel, by decide +kernel, fun last h => ?_⟩
  cases h
  decide

/-- `playingLine` with one track in force for a function, its detector one sample short of a confirmed opening at line 5. -/
def nearlyOpen (f : RouteFn) : State :=
  { playingLine with reader := { playingLine.reader with
      route := playingLine.reader.route.set 3 ⟨f, false⟩
      inForce := playingLine.reader.inForce.set 3 f
      detectors := playingLine.reader.detectors.set 3 { closedDetector with run := 1, runFirst := some 5 } } }

/-- A line whose one hole lies under track 3. -/
def holeAtTrack3 : Vector Byte 128 := Vector.ofFn fun i => if i.val = 11 then 255 else 0

/-- Lines with an END onset, whose draining is over at once or not, and lines without one; a NOTE opening that reaches the
queue, and a closing. -/
theorem test_meets_AcceptedLinesAreHandedOn_ends :
    let line (s : State) : State := after (exec (.scanLine 6 holeAtTrack3) s)
    let owed := { nearlyOpen .endMark with sched := { (nearlyOpen .endMark).sched with
      queue := [{ testRecord with fire := 1000000 }] } }
    let closing : Vector TrackStep 112 :=
      (Vector.replicate 112 ⟨closedDetector, none, none, none⟩).set 3 ⟨closedDetector, none, some (9, 4), none⟩
    let open4 := updateKey 0 (fun r => { r with owed := some ⟨.roll, 4⟩ })
      { nearlyOpen (.note 0) with sched := { (nearlyOpen (.note 0)).sched with owed := 1 } }
    (line (nearlyOpen .endMark)).perf.state = .stopped ∧ (line owed).perf.state = .draining ∧
      (line (nearlyOpen (.note 0))).perf.state = .playing ∧
      ((line (nearlyOpen (.note 0))).sched.queue.map (·.tag)) = [⟨.roll, 5⟩] ∧
      ((handClosings closing open4).sched.queue.map fun r => (r.kind, r.tag)) = [(.release 0, ⟨.roll, 4⟩)] := by
  decide +kernel

/-- A cue at the line and one above it. -/
theorem test_meets_AcceptedLinesReachTheirCues :
    let s := { playingLine with perf := { playingLine.perf with cues := [6, 7] } }
    (∃ c ∈ s.perf.cues, c ≤ 6) ∧ ¬∃ c ∈ s.perf.cues, c ≤ 5 := by
  decide +kernel

/-- CUE onsets: with roll-mark pausing in PLAYING and PAUSED, and without it; a track that confirms an opening, masked or
not. -/
theorem test_meets_AcceptedLinesReachTheirCues_marks :
    let pausing (s : State) : State := { s with clock := { s.clock with timing := s.clock.timing.set 8 1 } }
    let full := { closedDetector with run := 1, runFirst := some 4 }
    (pausing playingLine).clock.timing[8] = 1 ∧ (pausing playingLine).perf.state = .playing ∧
      playingLine.clock.timing[8] ≠ 1 ∧ (pausing (inState .paused)).perf.state ≠ .playing ∧
      (cueOnset 5 (pausing playingLine)).perf.pausePoint = some 200100 ∧
      (full.sense 160 96 2 5 160).2 = some 4 ∧ (trackStep 160 96 2 5 160 ⟨.cue, false⟩ full).onset = some 4 ∧
      (trackStep 160 96 2 5 160 ⟨.cue, true⟩ full).onset = none := by
  decide +kernel

/-- A channel that opens, one that closes, and one that the mask keeps as it is. -/
theorem test_meets_LevelChannelsFollowRawStateAndMask :
    let opened : Detector := { closedDetector with raw := true }
    let sounding : Detector := { opened with eff := true, openLine := some 4 }
    (opened.eff = false ∧ (levelStep 9 false opened (some 8) false).det.eff = true) ∧
      (sounding.eff = true ∧ (levelStep 9 true sounding none false).det.eff = false) ∧
      opened.eff = (levelStep 9 true opened (some 8) true).det.eff := by
  decide

/-- A track of each kind, and what it makes of a confirmed opening, masked or not. -/
theorem test_meets_LevelChannelsFollowRawStateAndMask_tracks :
    let full := { closedDetector with run := 1, runFirst := some 4 }
    let track (f : RouteFn) (mask : Bool) : TrackStep := trackStep 160 96 2 5 160 ⟨f, mask⟩ full
    (track (.note 0) false).opening = some 4 ∧ (track (.pedal .soft) false).opening = some 4 ∧
      (track (.expr .bass .slow) false).det.eff = true ∧ (track (.note 0) true).opening = none ∧
      (track .endMark false).onset = some 4 ∧ (track .endMark true).onset = none ∧ (track .cue false).onset = some 4 ∧
      (track .unused false).onset = none ∧ (track .unused false).det.raw = true ∧ (track .cue true).det.maskLast = true := by
  decide

theorem test_meets_DetectorsConfirmRuns :
    (closedDetector.raw = false ∧ 160 ≤ 160 ∧ 1 ≤ closedDetector.run + 1) ∧ closedDetector.run + 1 < 2 ∧
      ¬((closedDetector.raw = false ∧ 160 ≤ 159) ∨ (closedDetector.raw = true ∧ 159 ≤ 96)) := by
  decide

/-- A line with its dark edges at cells l and r. -/
def edges (l r : Nat) : Vector Byte 128 := Vector.ofFn fun i => if i.val = l ∨ i.val = r then 0 else 255

/-- An applied shift and its runs (AlignHold is 32 after power-on). -/
def shifted (shift : Int) (up down : Nat) : State :=
  { State.reset with reader := { State.reset.reader with shift := shift, upRun := up, downRun := down } }

/-- Alignment off, on without a dark cell, and with edges that measure above, below and at the shift; the move to +8; a cell
inside and outside the line. -/
theorem test_meets_DetectorsConfirmRuns_alignment :
    let off := { State.reset with reader := { State.reset.reader with detect := State.reset.reader.detect.set 4 0 } }
    off.reader.detect[4] ≠ 1 ∧ State.reset.reader.detect[4] = 1 ∧
      (∀ i : Fin 128, ¬(edges 200 200)[i].toNat ≤ State.reset.reader.detect[6]) ∧
      (edges 20 127)[(20 : Fin 128)].toNat ≤ State.reset.reader.detect[6] ∧
      (∀ i : Fin 128, (edges 20 127)[i].toNat ≤ State.reset.reader.detect[6] → 20 ≤ i ∧ i ≤ 127) ∧
      (alignLine (edges 20 127) (shifted 7 31 0)).reader.shift = 8 ∧
      (alignLine (edges 20 127) (shifted 7 31 0)).flag .alignLimit = true ∧
      (alignLine (edges 20 127) (shifted 7 30 0)).reader.upRun = 31 ∧
      (alignLine (edges 20 127) (shifted 8 0 5)).reader.downRun = 0 ∧
      (alignLine (edges 0 100) (shifted (-7) 0 31)).reader.shift = -8 ∧
      trackSample 16 0 (Vector.replicate 128 7) 111 = 7 ∧ trackSample 16 1 (Vector.replicate 128 7) 111 = 0 ∧
      trackSample 0 (-1) (Vector.replicate 128 7) 0 = 0 := by
  decide +kernel

theorem test_meets_LevelsAndIntensitiesStayInRange : State.reset.expr.shading[21] ≤ 256 := by decide

/-- `wired` with one track routed to a function that is in force, and open. -/
def openTrack (f : RouteFn) : State :=
  { wired with reader := { wired.reader with
      route := wired.reader.route.set 3 ⟨f, false⟩
      inForce := wired.reader.inForce.set 3 f
      detectors := wired.reader.detectors.set 3 { closedDetector with raw := true, eff := true, openLine := some 4 } } }

/-- Bits open and closed, an accent on and off, and the soft coupling. -/
theorem test_meets_LevelsAndIntensitiesStayInRange_bits :
    let accented := { wired with expr := { wired.expr with bass := { wired.expr.bass with accent := true, level := 1000 } } }
    ((openTrack (.expr .bass .int4)).steppedRegulator .bass).code = 4 ∧
      ((openTrack (.expr .bass .int4)).steppedRegulator .bass).target = 584 ∧
      ((openTrack (.expr .treble .fast)).steppedRegulator .treble).rate = .fast ∧
      ((openTrack (.expr .treble .slow)).steppedRegulator .treble).rate = .slow ∧
      (wired.steppedRegulator .treble).rate = .base ∧ ((openTrack (.expr .bass .accent)).steppedRegulator .bass).accent = true ∧
      accented.effectiveLevel .bass = 1023 ∧ accented.effectiveLevel .treble = 0 ∧
      (openTrack (.pedal .soft)).softApplies = true ∧ wired.softApplies = false ∧
      accented.effectiveLevel .bass / 4 = (255 : Fin 256).val := by
  decide +kernel

theorem test_meets_EndOnsetClosesTheRoll :
    let s := { State.reset with reader := { State.reset.reader with inForce := Vector.replicate 112 (.note 0) } }
    s.reader.inForce[(111 : Track)].isLevel = true := by
  decide +kernel

/-- No END onset, two of them on one line, and a masked END track whose detector confirms an opening. -/
theorem test_meets_EndOnsetClosesTheRoll_lines :
    let s := openTrack .endMark
    let two := { s with reader := { s.reader with inForce := s.reader.inForce.set 7 .endMark } }
    let none' : Vector TrackStep 112 := Vector.replicate 112 ⟨closedDetector, none, none, none⟩
    let steps := (none'.set 3 ⟨closedDetector, none, none, some 9⟩).set 7 ⟨closedDetector, none, none, some 8⟩
    let full := { closedDetector with run := 1, runFirst := some 4 }
    endLines none' s = [] ∧ endLines steps two = [9, 8] ∧ handEnd steps two = endOnset 8 two ∧
      handEnd none' two = two ∧ (full.sense 160 96 2 5 160).2 = some 4 ∧
      (trackStep 160 96 2 5 160 ⟨.endMark, false⟩ full).onset = some 4 := by
  decide +kernel

/-- An END onset with key 1's channel open since line 4, before and behind it: the closing is handed on at line 9, or at line
4. -/
theorem test_meets_EndOnsetClosesTheRoll_closings :
    let s := openTrack (.note 0)
    let owed := updateKey 0 (fun r => { r with owed := some ⟨.roll, 4⟩ }) { s with sched := { s.sched with owed := 1 } }
    s.reader.detectors[(3 : Track)].eff = true ∧ (endOnset 9 s).reader.detectors[(3 : Track)].eff = false ∧
      ((endOnset 9 owed).sched.queue.map fun r => (r.kind, r.tag)) = [(.release 0, ⟨.roll, 4⟩)] ∧
      s.reader.detectors[(3 : Track)].endClosing 9 = 9 ∧ s.reader.detectors[(3 : Track)].endClosing 3 = 4 := by
  decide +kernel

/-- DRAINING that is over, with and without a key in mismatch, and DRAINING that is not. -/
theorem test_meets_EndOnsetClosesTheRoll_drained :
    let touched := updateKey 0 (fun r => { r with observed := .down }) (inState .draining)
    let busy := { striking with perf := { striking.perf with state := .draining } }
    (inState .draining).drained = true ∧ (inState .draining).anyMismatch = false ∧ touched.drained = true ∧
      touched.anyMismatch = true ∧ busy.drained = false ∧ busy.anyMismatch = false ∧
      (settle (inState .draining)).perf.state = .stopped ∧ (settle touched).flag .touch = true ∧
      (settle busy).perf.state = .draining := by
  decide +kernel

theorem test_meets_LoadsReplaceTheirEntries :
    loadFits 22 (⟨21, [0#16]⟩ : Load (BitVec 16)) ∧ ¬loadFits 22 (⟨22, [0#16]⟩ : Load (BitVec 16)) ∧
      ¬loadFits 22 (⟨0, []⟩ : Load (BitVec 16)) := by
  decide

/-- Both ends of every entry's range (R60, R65, R152), and the last entry alone. -/
theorem test_meets_LoadsReplaceTheirEntries_ranges :
    let shading (v : BitVec 16) := (after (exec (.loadShading 7 (.good ⟨0, List.replicate 22 v⟩)) wired)).expr.shading
    let adapt (v : BitVec 16) := (after (exec (.loadAdaptParam 7 (.good ⟨0, [v, v]⟩)) wired)).calib.adaptParam
    let voice (v : BitVec 16) := (after (exec (.loadVoicing 7 (.good ⟨87, [v]⟩)) wired)).expr.voicing[87]
    (shading 0xFFFF).toList = List.replicate 16 1023 ++ [255, 255, 255, 512, 88, 256] ∧
      (shading 0).toList = List.replicate 16 0 ++ [1, 1, 1, 0, 2, 128] ∧ adapt 0xFFFF = #v[20000, 8] ∧
      adapt 0 = #v[1000, 2] ∧ voice 0x7FFF = 200 ∧ voice 0x8000 = -200 := by
  decide +kernel

/-- Loads that reach each guard: the last entry, one beyond it, a lead at its bound, a new D and a new P_nom. -/
theorem test_meets_GuardedLoadsKeepTheirBounds :
    loadFits 9 (⟨8, [1#32]⟩ : Load (BitVec 32)) ∧ ¬loadFits 9 (⟨8, [1#32, 1#32]⟩ : Load (BitVec 32)) ∧
      (loadTakes timingRange defaultTiming (⟨4, [190001#32]⟩ : Load (BitVec 32))).1[4] + 10000 > 200000 ∧
      (loadTakes timingRange defaultTiming (⟨1, [0#32]⟩ : Load (BitVec 32))).1[1] = 100000 ∧
      (loadTakes detectRange defaultDetect (⟨1, [97#8]⟩ : Load Byte)).1[1] = 97 := by
  decide +kernel

/-- Both ends of the entries' ranges (R21, R39), where no guard refuses the load. -/
theorem test_meets_GuardedLoadsKeepTheirBounds_ranges :
    let timing (first : BitVec 16) (n : Nat) (v : BitVec 32) :=
      (((after (exec (.loadTiming 7 (.good ⟨first, List.replicate n v⟩)) wired)).clock.timing.toList).drop first.toNat).take n
    let detect (first : BitVec 16) (n : Nat) (v : Byte) :=
      (((after (exec (.loadDetect 7 (.good ⟨first, List.replicate n v⟩)) wired)).reader.detect.toList).drop first.toNat).take n
    timing 0 4 0xFFFFFFFF = [8000, 500000, 2000, 100] ∧ timing 8 1 0xFFFFFFFF = [1] ∧ timing 0 1 0 = [250] ∧
      timing 2 7 0 = [50, 0, 0, 0, 0, 0, 0] ∧ detect 0 2 0xFF = [16, 255] ∧ detect 3 5 0xFF = [4, 1, 255, 255, 254] ∧
      detect 2 6 0 = [0, 1, 0, 8, 0, 0] := by
  decide +kernel

/-- A route load in STOPPED moves no channel before the next START (R48). -/
theorem test_route_load_waits_for_start :
    let s := openTrack (.pedal .soft)
    let loaded := after (exec (.loadRoute 7 (.good ⟨3, [⟨4, 0, 0⟩]⟩)) s)
    let started := after (exec (.start 7 (.good ())) loaded)
    loaded.reader.route[(3 : Track)] = ⟨.endMark, false⟩ ∧ loaded.reader.inForce = s.reader.inForce ∧
      loaded.softApplies = true ∧ started.reader.inForce[(3 : Track)] = .endMark ∧ started.softApplies = false := by
  decide +kernel

theorem test_meets_RouteLoadsAndMasksAreTakenWhole :
    let l : Load RawRoute := ⟨111, [⟨4, 0, 0⟩]⟩
    loadFits 112 l ∧ wired.perf.state = .stopped ∧ l.entries.map routeEntry? = [(⟨.endMark, false⟩ : RouteEntry)].map some ∧
      (∃ e ∈ [(⟨9, 0, 0⟩ : RawRoute)], routeEntry? e = none) ∧ (inState .armed).perf.state ≠ .stopped := by
  decide +kernel

/-- The first and last parameter of each function, and bytes that are no entry. -/
theorem test_meets_RouteLoadsAndMasksAreTakenWhole_entries :
    routeEntry? ⟨0, 0, 1⟩ = some ⟨.unused, true⟩ ∧ routeEntry? ⟨1, 1, 0⟩ = some ⟨.note 0, false⟩ ∧
      routeEntry? ⟨1, 88, 0⟩ = some ⟨.note 87, false⟩ ∧ routeEntry? ⟨2, 0, 0⟩ = some ⟨.pedal .sustain, false⟩ ∧
      routeEntry? ⟨2, 1, 0⟩ = some ⟨.pedal .soft, false⟩ ∧ routeEntry? ⟨3, 0, 0⟩ = some ⟨.expr .bass .int1, false⟩ ∧
      routeEntry? ⟨3, 0x15, 0⟩ = some ⟨.expr .treble .accent, false⟩ ∧ routeEntry? ⟨4, 0, 0⟩ = some ⟨.endMark, false⟩ ∧
      routeEntry? ⟨5, 0, 1⟩ = some ⟨.cue, true⟩ ∧
      ∀ r ∈ ([⟨0, 1, 0⟩, ⟨1, 0, 0⟩, ⟨1, 89, 0⟩, ⟨2, 2, 0⟩, ⟨3, 6, 0⟩, ⟨3, 0x16, 0⟩, ⟨3, 0x20, 0⟩, ⟨4, 1, 0⟩, ⟨5, 1, 0⟩,
        ⟨6, 0, 0⟩, ⟨0, 0, 2⟩] : List RawRoute), routeEntry? r = none := by
  decide +kernel

/-- A list laid over a table: before it, within it, past its end, and running past the table's. -/
theorem test_meets_RouteLoadsAndMasksAreTakenWhole_overlay :
    overlay #v[1, 2, 3, 4] 1 [8, 9] = #v[1, 8, 9, 4] ∧ overlay #v[1, 2, 3, 4] 3 [8, 9] = #v[1, 2, 3, 8] := by
  decide

/-- A profile with nothing on any board but key 1 and SUSTAIN, and one whose key 1 stands on an absent board. -/
def testRaw (present : Bool) : RawProfile where
  keys := Vector.ofFn fun k => if k.val = 0 then ⟨0, 0, true⟩ else ⟨0xFF, 0, false⟩
  sustain := ⟨0, 20⟩
  soft := ⟨0xFF, 0⟩
  boards := Vector.replicate 4 ⟨present, some 25, none, none, none⟩
  mTot := none
  holdLimit := none
  returnTimeout := none
  returnTime := none

theorem test_meets_ProfileIsWrittenOnce :
    wired.port.profile ≠ none ∧ State.reset.port.profile = none ∧ profileOf? (testRaw false) = none ∧
      (profileOf? (testRaw true)).isSome = true ∧ profileClamped (testRaw true) = true := by
  decide +kernel

/-- It meets ProfilesThatPassAreSound too: some profile passes. -/
theorem test_meets_ProfilesThatPassAreSound : ∃ p, profileOf? (testRaw true) = some p :=
  Option.isSome_iff_exists.mp (by decide +kernel)

/-- Profiles that fail at a board, at a channel, at an absent board and at a channel given twice; channel 23, and NONE given
twice, pass; parameters unstated, in range and clamped. -/
theorem test_meets_ProfilesThatPassAreSound_steps :
    let with' (board : Byte) (channel : BitVec 5) : RawProfile := { testRaw true with soft := ⟨board, channel⟩ }
    let plain : RawProfile := { testRaw true with boards := Vector.replicate 4 ⟨true, some 24, none, none, none⟩ }
    profileOf? (with' 4 0) = none ∧ profileOf? (with' 0 24) = none ∧ profileOf? (testRaw false) = none ∧
      profileOf? (with' 0 20) = none ∧ (profileOf? (with' 0 23)).isSome = true ∧
      (profileOf? (with' 0xFF 20)).isSome = true ∧ profileClamped plain = false ∧
      profileClamped { plain with mTot := some 65 } = true ∧
      (profileOf? { plain with mTot := some 65 }).map (·.mTot) = some 64 ∧
      (profileOf? plain).map (·.mTot) = some 20 ∧ (boardParams plain.boards[(0 : Board)]).mB = 24 ∧
      (boardParams (testRaw true).boards[(0 : Board)]).mB = 24 := by
  decide +kernel

/-- SUSTAIN engaging until 20,000 µs, at an action time, with its release waiting or not. -/
def engaging (now : Nat) (relWait : Bool) : State :=
  updatePedal .sustain (fun r => { r with relWait := relWait })
    { after (exec (.pedalAssert 7 (.good .sustain)) wired) with clock := { wired.clock with actionTime := now } }

/-- A pedal at its engage end, with its release waiting or not, and one microsecond before it. -/
theorem test_meets_PedalsFollowTheirSources :
    ((engaging 20000 false).settled ∧ (engaging 20000 false).pedals.sustain.phase = .engaging ∧
        (engaging 20000 false).pedals.sustain.engageEnd = some 20000 ∧ 20000 ≤ (engaging 20000 false).clock.actionTime) ∧
      ((engaging 20000 true).settled ∧ (engaging 20000 true).pedals.sustain.relWait = true ∧
        (engaging 20000 true).pedals.sustain.engageEnd = some 20000 ∧ 20000 ≤ (engaging 20000 true).clock.actionTime) ∧
      (engaging 19999 false).clock.actionTime < 20000 ∧ wired.pedals.sustain.engageEnd = none := by
  unfold State.settled; decide +kernel

/-- At its engage end SUSTAIN is held at its duty, or let go. -/
theorem test_engage_end :
    (after (exec (.engageEnd .sustain) (engaging 20000 false))).link.sentDrive.getLast? = some ⟨0, 20, .hold 96⟩ ∧
      (after (exec (.engageEnd .sustain) (engaging 20000 true))).link.sentDrive.getLast? = some ⟨0, 20, .off⟩ := by
  decide +kernel

theorem test_meets_DispatchHandsTheHeadRecord :
    let s := { wired with sched := { wired.sched with queue := [testRecord] } }
    s.sched.queue = testRecord :: [] ∧ s.perf.state ≠ .paused ∧ testRecord.fire ≤ s.playTime ∧ wired.sched.queue = [] ∧
      (inState .paused).perf.state = .paused ∧ s.playTime < { testRecord with fire := 1 }.fire := by
  decide +kernel

/-- A sum beyond the largest play time is held before its lead is taken off (R78, R92; R80 and R93 by log 3). -/
theorem test_held_sums :
    let s := { wired with intake := { last := some 5, history := [⟨5, 281474976710000⟩] } }
    s.strikeTime 5 = 281474976710655 ∧ (requestPedalDown .sustain 5 s).sched.queue.map (·.fire) = [281474976650655] ∧
      s.releaseTime 0 5 5 = 281474976702655 ∧ s.pedalUpTime .sustain 5 5 = 281474976670655 := by
  decide +kernel

/-- The space at 254 and 255, the owed tag, the refused tag, and a fire time now and later. -/
theorem test_meets_OnsetsReserveTheirReleases :
    254 + 2 ≤ 256 ∧ 256 < 255 + 2 ∧ ((keyed fun r => { r with owed := some testTag }).targetTags testRecord.kind).1 = some testTag ∧
      (wired.targetTags testRecord.kind).1 ≠ some testTag ∧
      ((keyed fun r => { r with refused := some testTag }).targetTags testRecord.kind).2 = some testTag ∧
      wired.playTime < { testRecord with fire := 1 }.fire ∧ testRecord.fire ≤ wired.playTime := by
  decide +kernel

/-- The default record rises; intensities at each bound of its segments; notes that match and that do not. -/
theorem test_meets_RecordsCarryTheirTimes :
    defaultCalRec.rising = true ∧ defaultCalRec.p0.intensity ≤ 100 ∧ 349 < defaultCalRec.p1.intensity ∧
      defaultCalRec.p1.intensity ≤ 350 ∧ defaultCalRec.p3.intensity ≤ 1000 ∧
      (noteStrike 0 testVals testTag 0 wired).strike.lastNotes[(0 : Key)] = some ⟨testTag, 500, 6000, 15000, 0⟩ ∧
      wired.strike.lastNotes[(0 : Key)] = none := by
  decide +kernel

/-- A free slot, a full total, a full board, and each phase. -/
theorem test_meets_StrikesReachTheirKeys :
    (wired.key 0).phase = .resting ∧ wired.keyWire 0 = some (0, 0) ∧ (wired.board 0).inFlight < wired.boardLimit 0 ∧
      wired.sched.total < wired.totalLimit ∧ striking.totalLimit ≤ striking.sched.total ∧
      striking.boardLimit 0 ≤ (striking.board 0).inFlight ∧ wired.keyWire 2 = none ∧
      (striking.key 0).phase = .striking ∧ (State.reset.key 0).phase = .offline := by
  decide +kernel

theorem test_meets_ArbiterServesTheDeferralList :
    waitingStrike.sched.deferral = [] ++ ⟨1, testStrike⟩ :: [] ∧
      (∃ b c, waitingStrike.keyWire 1 = some (b, c) ∧ (waitingStrike.board b).inFlight < waitingStrike.boardLimit b) ∧
      waitingStrike.sched.total < waitingStrike.totalLimit ∧ wired.sched.deferral = [] ∧
      striking.totalLimit ≤ striking.sched.total :=
  ⟨by decide +kernel, ⟨0, 1, by decide +kernel⟩, by decide +kernel, by decide +kernel, by decide +kernel⟩

theorem test_meets_ReleasesMatchByTag :
    (striking.key 0).current = some testTag ∧ (striking.key 0).phase = .striking ∧
      (keyed fun r => { r with current := some testTag, phase := .held }).key 0 =
        { wired.key 0 with current := some testTag, phase := .held } ∧
      (waitingStrike.key 1).phase = .deferred ∧ waitingStrike.entryTagged 1 testTag = true ∧
      ((keyed fun r => { r with pending := some testStrike }).key 0).pending = some testStrike ∧
      (wired.key 0).current = none ∧ (wired.key 0).pending = none := by
  decide +kernel

theorem test_meets_PulseEndFreesTheSlot :
    (striking.key 0).phase = .striking ∧ (striking.key 0).pulseEnd = some 6000 ∧ striking.keyWire 0 = some (0, 0) ∧
      striking.clock.actionTime < 6000 ∧ striking.sched.deferral = [] ∧ (wired.key 0).phase ≠ .striking := by
  decide +kernel

theorem test_meets_KeyTimersRunOut :
    let held := keyed fun r => { r with phase := .held, holdLimit := some 0 }
    let back (x : TimerKind) := keyed fun r => { r with phase := .releasing, returnTimer := some (0, x) }
    held.settled ∧ (held.key 0).holdLimit = some 0 ∧ (back .timeout).settled ∧
      ((back .timeout).key 0).returnTimer = some (0, .timeout) ∧ (back .fixed).settled ∧
      ((back .fixed).key 0).returnTimer = some (0, .fixed) ∧ (wired.key 0).phase ≠ .held := by
  unfold State.settled; decide +kernel

/-- Key 1's articulation in the air with its report taken, and cut short by a STOP with its report still to come. -/
def reported : State := updateKey 0 (fun r => { r with strikeSeen := true }) striking
def shortCut : State := after (exec (.stop 7 (.good ())) { striking with perf := { striking.perf with state := .playing } })

/-- Key 1's probe, HELD at the cut that ends it, its report still to come. -/
def cutProbe : State :=
  after (exec (.stop 7 (.good ())) (updateKey 0 (fun r => { r with phase := .held, pulseEnd := none }) probing))

/-- A pulsed roll articulation that was seen, and one that was cut short. -/
theorem test_meets_KeysComeToRest_seen :
    ((reported.key 0).current = some ⟨.roll, 5⟩ ∧ (reported.key 0).pulseSent = true ∧ (reported.key 0).strikeSeen = true) ∧
      ((shortCut.key 0).current = some ⟨.roll, 5⟩ ∧ (shortCut.key 0).pulseSent = true ∧
        (shortCut.key 0).strikeSeen = false ∧ (shortCut.key 0).cutShort = true) ∧
      (restNotice 0 reported).counter .missedStrikes = 0 ∧ (restNotice 0 shortCut).counter .missedStrikes = 0 ∧
      (restNotice 0 striking).counter .missedStrikes = 1 := by
  decide +kernel

/-- A pulsed roll articulation that was neither; a probe's; a pending strike in and out of PAUSED. -/
theorem test_meets_KeysComeToRest :
    (striking.key 0).current = some ⟨.roll, 5⟩ ∧ (striking.key 0).pulseSent = true ∧ (striking.key 0).strikeSeen = false ∧
      (striking.key 0).cutShort = false ∧ probing.isBusyProbe (probing.key 0).current = true ∧
      wired.isBusyProbe (wired.key 0).current = false ∧ (wired.key 0).pending = none ∧
      ((keyed fun r => { r with pending := some testStrike }).key 0).pending = some testStrike ∧
      wired.perf.state ≠ .paused ∧ wired.reportKey 0 0 = some 0 := by
  decide +kernel

/-- Errors at OutlierLimit and one above it, of an articulation in the air; a key that is not. -/
theorem test_meets_StrikeReportsAreClassified :
    striking.reportKey 0 0 = some 0 ∧ (striking.key 0).expLead = some 15000 ∧
      ((27000 : Int) - 15000).natAbs ≤ striking.calib.adaptParam[0] ∧
      striking.calib.adaptParam[0] < ((27001 : Int) - 15000).natAbs ∧ (wired.key 0).pulseSent = false := by
  decide +kernel

/-- Reports of an articulation already seen, of one cut short and of an ended probe's, and what the last leaves alone. -/
theorem test_meets_StrikeReportsAreClassified_seen :
    reported.reportKey 0 0 = some 0 ∧ ((reported.key 0).phase = .striking ∧ (reported.key 0).strikeSeen = true) ∧
      shortCut.reportKey 0 0 = some 0 ∧ ((shortCut.key 0).phase = .releasing ∧ (shortCut.key 0).pulseSent = true ∧
        (shortCut.key 0).strikeSeen = false ∧ (shortCut.key 0).cutShort = true) ∧
      cutProbe.reportKey 0 0 = some 0 ∧ ((cutProbe.key 0).current = some ⟨.probe, 1⟩ ∧
        cutProbe.isBusyProbe (cutProbe.key 0).current = false ∧ (cutProbe.key 0).phase = .releasing ∧
        (cutProbe.key 0).pulseSent = true ∧ (cutProbe.key 0).strikeSeen = false ∧ (cutProbe.key 0).cutShort = false) ∧
      ((after (exec (.strikeReport 0 0 100) cutProbe)).key 0).strikeSeen = true ∧
      ((after (exec (.strikeReport 0 0 100) cutProbe)).key 0).outlierRun = 0 ∧
      (after (exec (.strikeReport 0 0 100) cutProbe)).counter .outliers = 0 := by
  decide +kernel

/-- Channels 0, 2 and 24 of board 0, board 1, board 4, and no profile. -/
theorem test_meets_BoardFramesAreRoutedOrStray :
    wired.reportKey 0 0 = some 0 ∧ wired.reportKey 0 2 = none ∧ wired.reportKey 0 24 = none ∧ wired.reportKey 0 20 = none ∧
      wired.reportKey 1 0 = none ∧ wired.reportKey 4 0 = none ∧ State.reset.port.profile = none ∧
      (wired.board 0).present = true ∧ (wired.board 0).service = .enabled := by
  decide +kernel

/-- A FAULT of an enabled board whose disable removes a busy probe and one whose disable does not, in STOPPED and PAUSED,
and of a disabled board. -/
theorem test_meets_BoardFramesAreRoutedOrStray_fault :
    let faulted (s : State) : State := after (exec (.faultReport 0 .thermal) s)
    let paused := { striking with perf := { striking.perf with state := .paused } }
    (probing.board 0).service = .enabled ∧ probing.calib.probe.any (·.busy) = true ∧ probing.keyOnBoard 0 0 = true ∧
      (probing.key 0).phase = .striking ∧ (probing.key 0).current = some ⟨.probe, 1⟩ ∧
      (faulted probing).calib.probe.map (·.endCause) = some (some .disable) ∧
      (faulted striking).board 0 = { striking.board 0 with
        service := .disabled .fault, faultReason := some .thermal, inFlight := 0 } ∧
      ((faulted paused).key 0).phase = .offline ∧ (faulted paused).flag .boardFault = true ∧
      ((faulted wired).board 0).service ≠ .enabled ∧ (faulted wired).settled := by
  unfold State.settled; decide +kernel

theorem test_meets_BoardRequestsDisableAndEnable :
    4 ≤ (4#8).toNat ∧ (3#8).toNat < 4 ∧ State.reset.port.profile = none ∧ wired.port.profile ≠ none ∧
      (0 : Board).val = (0#8).toNat ∧ (wired.board 1).service = .disabled .absent := by
  decide +kernel

theorem test_meets_AdaptRequestsResetAndThaw :
    (88#8).toNat = (87 : Key).val + 1 ∧ (1#8).toNat = (0 : Key).val + 1 ∧ (0#8).toNat = 0 ∧ 88 < (89#8).toNat := by
  decide

/-- The serial's wrap, the bounds of intensity and hold, and each refusal. -/
theorem test_meets_ProbeBeginsItsStrike :
    nextSerial 65535 = 1 ∧ nextSerial 0 = 1 ∧ clampNat 1 1000 0 = 1 ∧ clampNat 1 1000 1001 = 1000 ∧
      State.reset.port.profile = none ∧ (inState .armed).perf.state ≠ .stopped ∧ probing.probeBusy = true ∧
      wired.queueLoad < 256 := by
  decide +kernel

theorem test_meets_ReadsAnswerTheirData :
    (88#8).toNat = (87 : Key).val + 1 ∧ (tableEntries wired 6).map (·.1) = some 26 ∧
      (tableEntries wired 6).map (·.2.length) = some 88 ∧ (tableEntries wired 8).map (·.2.length) = some 2 ∧
      (statusData wired).length = 55 := by
  decide +kernel

/-- A probe record and none; a pedal's, a board's and the loop's data have the sizes of their fields. -/
theorem test_meets_ReadsAnswerTheirData_fields :
    State.reset.calib.probe = none ∧ probing.calib.probe.isSome = true ∧ (probeData probing).length = 39 ∧
      (loopData wired).length = 25 ∧ (regulatorsData wired).length = 25 ∧ (keyData wired 0).length = 94 ∧
      (boardsData wired).length = 4 * 18 + 547 := by
  decide +kernel

/-- One entry of each table, as READ TABLE sends it. -/
theorem test_meets_ReadsAnswerTheirData_tables :
    let route := wired.reader.route.set 111 ⟨.note 44, false⟩ |>.set 0 ⟨.expr .treble .accent, true⟩
    let s : State := { wired with
      reader := { wired.reader with route }, expr := { wired.expr with voicing := wired.expr.voicing.set 0 (-200) } }
    let entry (t n : Nat) : Option (List Byte) := (tableEntries s t).bind (·.2[n]?)
    entry 1 0 = some [3, 0x15, 1] ∧ entry 1 111 = some [1, 0x2D, 0] ∧ entry 1 112 = none ∧
      entry 5 0 = some [0xFF, 0x38] ∧ entry 7 1 = some [0, 3, 0x0D, 0x40] ∧ (entry 2 7).isSome ∧ (entry 2 8).isNone ∧
      (entry 3 21).isSome ∧ (entry 3 22).isNone ∧ (entry 4 255).isSome ∧ (entry 6 87).map List.length = some 26 ∧
      (entry 7 8).isSome ∧ (entry 8 1).isSome ∧ tableEntries s 0 = none ∧ tableEntries s 9 = none := by
  decide +kernel

/-- One OFF for a selected key or pedal with a channel, none for one without. -/
theorem test_meets_CutEmptiesThePendingWork_offs :
    offKeys (fun _ _ => true) wired = [⟨0, 0, .off⟩, ⟨0, 1, .off⟩] ∧ offPedals (fun _ _ => true) wired = [⟨0, 20, .off⟩] ∧
      offKeys (fun _ r => r.driven) striking = [⟨0, 0, .off⟩] ∧ wired.keyWire 1 = some (0, 1) ∧ wired.keyWire 2 = none ∧
      wired.pedalWire .soft = none ∧ State.reset.keyWire 0 = none := by
  decide +kernel

/-- Each kind of probe activity, and none. -/
theorem test_meets_StopCutsThePerformance_activity :
    let probe : Strike := { testStrike with tag := ⟨.probe, 1⟩ }
    wired.probeActivity = false ∧ probing.probeActivity = true ∧ striking.probeActivity = true ∧
      (keyed fun r => { r with phase := .held }).probeActivity = true ∧ (joinDeferral 0 probe wired).probeActivity = true ∧
      (keyed fun r => { r with pending := some probe }).probeActivity = true ∧
      (keyed fun r => { r with pending := some testStrike }).probeActivity = false ∧
      { wired with sched := { wired.sched with queue := [⟨.release 0, ⟨.probe, 1⟩, 9⟩] } }.probeActivity = true := by
  decide +kernel

/-- A line in the history, and one that has left it. -/
theorem test_meets_RecordsCarryTheirTimes_lines :
    let s := { wired with intake := { last := some 7, history := [⟨5, 100⟩, ⟨7, 300⟩] } }
    s.timeOf 5 = 100 ∧ s.timeOf 7 = 300 ∧ s.timeOf 4 = 300 ∧ s.strikeTime 5 = 200100 ∧
      (wired.strikeVals 0 99).width = 2000 ∧ (wired.strikeVals 0 1000).width = 12000 := by
  decide +kernel

/-- The owed and the refused tag of a key and of a pedal; a record behind one that is due. -/
theorem test_meets_OnsetsReserveTheirReleases_tags :
    let t := setRefused (.pedalDown .soft) (some testTag) (setOwed (.strike 3 testVals) (some testTag) wired)
    let due := { wired with sched := { wired.sched with queue := [testRecord] } }
    (t.key 3).owed = some testTag ∧ (t.key 3).refused = none ∧ (t.key 2).owed = none ∧
      (t.pedal .soft).refused = some testTag ∧ (t.pedal .sustain).refused = none ∧
      t.targetTags (.release 3) = (some testTag, none) ∧ t.targetTags (.pedalUp .soft) = (none, some testTag) ∧
      (enqueue ⟨.release 0, testTag, 0⟩ due).sched.queue = [] ∧ ((enqueue ⟨.release 0, testTag, 0⟩ due).key 0).relWait = true := by
  decide +kernel

/-- The parameters of boards and profile that the operations read, in microseconds where they time. -/
theorem test_meets_parameters :
    wired.boardLimit 0 = 1 ∧ wired.totalLimit = 1 ∧ wired.lateLimit = 40000 ∧ wired.engageWidth .sustain = 20000 ∧
      wired.pedalHoldDuty .sustain = 96 ∧ wired.holdDuty 1 = 48 ∧ wired.holdLimitTime = 20000000 ∧
      wired.returnTimerFor 0 = (150000, .timeout) ∧ wired.returnTimerFor 1 = (80000, .fixed) := by
  decide +kernel

/-- The lowest, the highest and a middle flag, and the first and last counter in their places. -/
theorem test_meets_flags_and_counters :
    (raise .lockChange wired).mgmt.flags = 0x0001 ∧ (raise .sensorFault wired).mgmt.flags = 0x0100 ∧
      (raise .probeDone wired).mgmt.flags = 0x4000 ∧ (countBy 70000 .crcErrors wired).mgmt.counters[0] = 65535 ∧
      (count .queueRefusals wired).mgmt.counters[7] = 1 ∧ (count .strayReports wired).mgmt.counters[13] = 1 := by
  decide +kernel

/-! ### What steps keep holds somewhere besides reset -/

theorem test_meets_EveryStepKeepsManagementSound : striking.managementSound := by
  refine ⟨?_, by decide +kernel, by decide +kernel, by decide +kernel, ?_, by decide +kernel⟩
  · unfold State.settled; decide +kernel
  · intro c; cases c <;> decide +kernel

theorem test_meets_EveryStepKeepsPerformanceSound :
    wired.performanceSound ∧ (after (exec (.start 7 (.good ())) (openTrack (.note 0)))).performanceSound := by
  constructor <;> (unfold State.performanceSound; decide +kernel)

theorem test_meets_EveryStepKeepsTheQueueSound : probing.queueSound := by
  unfold State.queueSound; decide +kernel

theorem test_meets_EveryStepKeepsKeysAndPedalsInAgreement : striking.keysAgree ∧ striking.pedalsAgree := by
  constructor
  · unfold State.keysAgree; decide +kernel
  · intro p; cases p <;> decide +kernel

end Sys2Proof.Machine
end

namespace Sys2Proof.Machine

/-! ### Requests that raise no flag -/

/-- A request whose effect leaves a settled state with the flags as they were is answered by the response alone: no flag
rose, so no notice is due (R166, R173). -/
theorem request_responds {s t : State} {r : Result} {effect : State → State × Result} (h : s.ready) (c : Instr)
    (id : Byte) (he : effect s = (t, r)) (ht : t.settled) (hf : t.mgmt.flags = s.mgmt.flags) :
    request c id effect s = .next (t.nowDue [.response id r []]) := by
  rw [request_settled h c id effect (by rwa [he]), he, replied_same hf]

/-! ### START (R2) -/

theorem exec_start_good (id : Byte) (s : State) :
    exec (.start id (.good ())) s = request (.start id (.good ())) id takeStart s := rfl

/-! The branches of `takeStart`. -/

theorem takeStart_ok {s : State} (hs : s.perf.state = .stopped) (hp : s.port.profile ≠ none) (hb : s.probeBusy = false) :
    takeStart s = (beginPerformance s, .ok) := by
  simp [takeStart, hs, hp, hb]

theorem takeStart_notReady {s : State} (hs : s.perf.state = .stopped) (hp : s.port.profile = none) :
    takeStart s = (s, .notReady) := by
  simp [takeStart, hs, hp]

theorem takeStart_busy_of_probe {s : State} (hs : s.perf.state = .stopped) (hp : s.port.profile ≠ none)
    (hb : s.probeBusy = true) : takeStart s = (s, .busy) := by
  simp [takeStart, hs, hp, hb]

theorem takeStart_busy_of_state {s : State} (hs : s.perf.state ≠ .stopped) : takeStart s = (s, .busy) := by
  simp [takeStart, hs]

/-- The roll prepared is ARMED, so R17 has nothing to end, and no key or flag has changed. -/
theorem beginPerformance_settled {s : State} (h : s.settled) : (beginPerformance s).settled :=
  settled_of_state (fun e => PerfState.noConfusion e) h.2

/-- Settles O8: each branch of `takeStart` gives the next state and the result, and none of them raises a flag. -/
theorem startPreparesAFreshRoll : Obligations.StartPreparesAFreshRoll := by
  intro id s hready hsettled
  simp only [exec_start_good]
  refine ⟨fun hstopped hprofile hprobe => ?taken, fun hstopped hprofile => ?notReady, ?busy⟩
  case taken =>
    exact request_responds hready _ id (takeStart_ok hstopped hprofile hprobe) (beginPerformance_settled hsettled) rfl
  case notReady =>
    exact request_responds hready _ id (takeStart_notReady hstopped hprofile) hsettled rfl
  case busy =>
    rintro (⟨hstopped, hprofile, hprobe⟩ | hstate)
    · exact request_responds hready _ id (takeStart_busy_of_probe hstopped hprofile hprobe) hsettled rfl
    · exact request_responds hready _ id (takeStart_busy_of_state hstate) hsettled rfl

/-! ### SET_CUE and CLEAR_CUE (R8) -/

/-! Each of the three requests comes to replacing the cue list, which no settled state rests on. -/

theorem exec_setCue_good (id : Byte) (n : BitVec 24) (s : State) :
    exec (.setCue id (.good n)) s = request (.setCue id (.good n)) id (takeSetCue n.toNat) s := rfl

theorem exec_clearCue_good (id : Byte) (n : BitVec 24) (s : State) :
    exec (.clearCue id (.good n)) s = request (.clearCue id (.good n)) id
      (fun s => (setCues (s.perf.cues.filter (· != n.toNat)) s, .ok)) s := rfl

theorem exec_clearCueAll_good (id : Byte) (s : State) :
    exec (.clearCueAll id (.good ())) s = request (.clearCueAll id (.good ())) id (fun s => (setCues [] s, .ok)) s := rfl

theorem setCues_settled {s : State} (h : s.settled) (cues : List Nat) : (setCues cues s).settled :=
  settled_same h rfl rfl rfl rfl

/-- A cue that is in the list changes nothing. -/
theorem takeSetCue_mem {n : Nat} {s : State} (hn : n ∈ s.perf.cues) : takeSetCue n s = (setCues s.perf.cues s, .ok) := by
  simp [takeSetCue, hn, setCues]

theorem takeSetCue_full {n : Nat} {s : State} (hn : n ∉ s.perf.cues) (hfull : 8 ≤ s.perf.cues.length) :
    takeSetCue n s = (setCues s.perf.cues s, .full) := by
  simp [takeSetCue, hn, cueCapacity, hfull, setCues]

theorem takeSetCue_room {n : Nat} {s : State} (hn : n ∉ s.perf.cues) (hroom : ¬ 8 ≤ s.perf.cues.length) :
    takeSetCue n s = (setCues (s.perf.cues.takeWhile (· < n) ++ n :: s.perf.cues.dropWhile (· < n)) s, .ok) := by
  simp [takeSetCue, hn, cueCapacity, hroom, insertCue_eq]

/-- CLEAR_CUE keeps the cues that differ from the one named: the model's Boolean test, read as a proposition. -/
theorem filter_bne_eq (n : Nat) (cues : List Nat) : cues.filter (· != n) = cues.filter (· ≠ n) :=
  List.filter_congr fun _ _ => decide_not.symm

/-- A request that only replaces the cue list, and is answered with r. -/
theorem request_setsCues {s : State} {cues : List Nat} {r : Result} {effect : State → State × Result} (hready : s.ready)
    (hsettled : s.settled) (c : Instr) (id : Byte) (he : effect s = (setCues cues s, r)) :
    request c id effect s = .next ((setCues cues s).nowDue [.response id r []]) :=
  request_responds hready c id he (setCues_settled hsettled cues) rfl

/-- Settles O15: each request replaces the cue list alone, SET_CUE by the branch of `takeSetCue` that applies. -/
theorem cueRequestsEditTheCueList : Obligations.CueRequestsEditTheCueList := by
  intro id n s hready hsettled
  refine ⟨?set, ?clear, ?clearAll⟩
  case set =>
    rw [exec_setCue_good]
    split_ifs with hmem hfull
    · exact request_setsCues hready hsettled _ id (takeSetCue_mem hmem)
    · exact request_setsCues hready hsettled _ id (takeSetCue_full hmem hfull)
    · exact request_setsCues hready hsettled _ id (takeSetCue_room hmem hfull)
  case clear =>
    rw [exec_clearCue_good]
    exact request_setsCues hready hsettled _ id (by rw [filter_bne_eq])
  case clearAll =>
    exact request_setsCues hready hsettled _ id rfl

end Sys2Proof.Machine

namespace Sys2Proof.Machine

/-! ### TIMEBASE (R31) -/

/-- The well-formed TIMEBASE request that names a base. -/
def timebaseRequest (id : Byte) : Base → Instr
  | .free => .timebaseFree id (.good ())
  | .line => .timebaseLine id (.good ())

theorem exec_timebaseRequest (id : Byte) (b : Base) (s : State) :
    exec (timebaseRequest id b) s = request (timebaseRequest id b) id (takeTimebase b) s := by
  cases b with
  | free => rfl
  | line => rfl

/-! The branches of `takeTimebase`. -/

theorem takeTimebase_busy {b : Base} {s : State} (hswitch : s.clock.switch ≠ none) :
    takeTimebase b s = (s, .busy) := by
  simp [takeTimebase, Option.isSome_iff_ne_none, hswitch]

theorem takeTimebase_interlock {b : Base} {s : State} (hswitch : s.clock.switch = none)
    (hline : b = .line ∧ s.clock.loop.mode ≠ .tracking) : takeTimebase b s = (s, .interlock) := by
  simp [takeTimebase, hswitch, hline]

theorem takeTimebase_same {b : Base} {s : State} (hswitch : s.clock.switch = none)
    (hloop : ¬ (b = .line ∧ s.clock.loop.mode ≠ .tracking)) (hbase : b = s.clock.base) :
    takeTimebase b s = (s, .ok) := by
  simp [takeTimebase, hswitch, if_neg hloop, ← hbase]

theorem takeTimebase_stopped {b : Base} {s : State} (hswitch : s.clock.switch = none)
    (hloop : ¬ (b = .line ∧ s.clock.loop.mode ≠ .tracking)) (hbase : b ≠ s.clock.base)
    (hstate : s.perf.state = .stopped) :
    takeTimebase b s = ({ s with clock := { s.clock with base := b } }, .ok) := by
  simp [takeTimebase, hswitch, if_neg hloop, hbase, hstate]

theorem takeTimebase_pending {b : Base} {s : State} (hswitch : s.clock.switch = none)
    (hloop : ¬ (b = .line ∧ s.clock.loop.mode ≠ .tracking)) (hbase : b ≠ s.clock.base)
    (hstate : s.perf.state ≠ .stopped) :
    takeTimebase b s = ({ s with clock := { s.clock with switch := some b } }, .ok) := by
  simp [takeTimebase, hswitch, if_neg hloop, hbase, hstate]

/-- Neither R17 nor R163 looks at the Line Clock. -/
theorem withClock_settled {s : State} (h : s.settled) (clock : LineClock) :
    State.settled { s with clock := clock } :=
  settled_same h rfl rfl rfl rfl

/-- Settles O23: each branch of `takeTimebase` gives the next state and the result, and none of them raises a flag. -/
theorem timebaseChangesTheBase : Obligations.TimebaseChangesTheBase := by
  intro id b s hready hsettled
  refine (exec_timebaseRequest id b s).trans ?_
  split_ifs with hpending hloop hbase hstate
  case pos => exact request_responds hready _ id (takeTimebase_busy hpending) hsettled rfl
  all_goals have hswitch : s.clock.switch = none := not_not.mp hpending
  · exact request_responds hready _ id (takeTimebase_interlock hswitch hloop) hsettled rfl
  · exact request_responds hready _ id (takeTimebase_same hswitch hloop hbase) hsettled rfl
  · exact request_responds hready _ id (takeTimebase_stopped hswitch hloop hbase hstate)
      (withClock_settled hsettled _) rfl
  · exact request_responds hready _ id (takeTimebase_pending hswitch hloop hbase hstate)
      (withClock_settled hsettled _) rfl

end Sys2Proof.Machine

namespace Sys2Proof.Machine

/-! ### LOAD of TIMING (R22) and of DETECT (R40) -/

theorem exec_loadTiming_good (id : Byte) (l : Load (BitVec 32)) (s : State) :
    exec (.loadTiming id (.good l)) s = request (.loadTiming id (.good l)) id (takeTiming l) s := rfl

theorem exec_loadDetect_good (id : Byte) (l : Load Byte) (s : State) :
    exec (.loadDetect id (.good l)) s = request (.loadDetect id (.good l)) id
      (fun s => if l.entries.isEmpty then (s, .invalid) else takeDetect l s) s := rfl

/-- A count of 0 is refused before DETECT's own rule. -/
theorem exec_loadDetect_empty (id : Byte) {l : Load Byte} (s : State) (h : l.entries = []) :
    exec (.loadDetect id (.good l)) s = request (.loadDetect id (.good l)) id (fun s => (s, .invalid)) s := by
  simp only [exec_loadDetect_good, List.isEmpty_iff, h, if_true]

theorem exec_loadDetect_nonempty (id : Byte) {l : Load Byte} (s : State) (h : l.entries ≠ []) :
    exec (.loadDetect id (.good l)) s = request (.loadDetect id (.good l)) id (takeDetect l) s := by
  simp only [exec_loadDetect_good, List.isEmpty_iff, h, if_false]

/-! The ranges of the entries, index by index. -/

theorem timingRange_eq_ite (i : Nat) : timingRange i =
    if i = 0 then (250, 8000) else if i = 1 then (100000, 500000) else if i = 2 then (50, 2000)
    else if i = 3 then (0, 100) else if i = 8 then (0, 1) else (0, 490000) := by
  unfold timingRange
  split
  case h_6 hother => simp_all
  all_goals rfl

theorem detectRange_eq_ite (i : Nat) : detectRange i =
    if i = 0 then (0, 16) else if i = 1 then (1, 255) else if i = 2 then (0, 254) else if i = 3 then (1, 4)
    else if i = 4 then (0, 1) else if i = 5 then (8, 255) else if i = 6 then (0, 255) else (0, 254) := by
  unfold detectRange
  split
  case h_8 hother => simp_all
  all_goals rfl

/-! The two halves of `clampedLoad_eq`. -/

theorem clampedLoad_table {w n : Nat} (range : Nat → Nat × Nat) (held : Vector Nat n) (l : Load (BitVec w)) :
    (clampedLoad range held l).1 = (loadTakes range held l).1 :=
  congrArg Prod.fst (clampedLoad_eq range held l)

theorem clampedLoad_answer {w n : Nat} (range : Nat → Nat × Nat) (held : Vector Nat n) (l : Load (BitVec w)) :
    loadResult (clampedLoad range held l).2 = (loadTakes range held l).2 :=
  congrArg Prod.snd (clampedLoad_eq range held l)

/-- The pedal leads are the entries 4 to 7. -/
theorem not_leadsFit_iff (t : Vector Nat 9) :
    (!leadsFit t) = true ↔ ∃ i : Fin 4, t[1] < t[i.val + 4] + 10000 := by
  rw [Bool.not_eq_true', ← Bool.not_eq_true, not_iff_comm]
  simp [leadsFit, Fin.forall_fin_succ, and_assoc]

/-- What a Timing load comes to, each refusal in the order of R22. -/
theorem takeTiming_eq (l : Load (BitVec 32)) (s : State) : takeTiming l s =
    let t := loadTakes timingRange s.clock.timing l
    if ¬loadFits 9 l then (s, .invalid)
    else if ∃ i : Fin 4, t.1[1] < t.1[i.val + 4] + 10000 then (s, .invalid)
    else if t.1[1] ≠ s.clock.timing[1] ∧ s.perf.state ≠ .stopped then (s, .busy)
    else if t.1[0] ≠ s.clock.timing[0] ∧ s.clock.loop.mode ≠ .off then (s, .interlock)
    else ({ s with clock := { s.clock with timing := t.1 } }, t.2) := by
  simp only [takeTiming, addresses_iff, clampedLoad_table, clampedLoad_answer, not_leadsFit_iff, State.playDelay,
    State.pNom, ite_not]

/-- What a Detect load of an entry or more comes to (R40). -/
theorem takeDetect_eq (l : Load Byte) (s : State) : takeDetect l s =
    let t := loadTakes detectRange s.reader.detect l
    if s.perf.state ≠ .stopped then (s, .busy)
    else if ¬loadFits 8 l then (s, .invalid)
    else if t.1[1] ≤ t.1[2] then (s, .invalid)
    else ({ s with reader := { s.reader with detect := t.1 } }, t.2) := by
  simp only [takeDetect, addresses_iff, clampedLoad_table, clampedLoad_answer, ← Nat.not_lt, ite_not]

/-- Neither R17 nor R163 looks at the Track Reader. -/
theorem withReader_settled {s : State} (h : s.settled) (reader : TrackReader) :
    State.settled { s with reader := reader } :=
  settled_same h rfl rfl rfl rfl

/-- Settles O35: the guards of each load are taken one by one, and neither a refusal nor the table written raises a
flag. -/
theorem guardedLoadsKeepTheirBounds : Obligations.GuardedLoadsKeepTheirBounds := by
  intro id s hready hsettled refused timingEntry detectEntry
  have htiming : timingEntry = timingRange := (funext timingRange_eq_ite).symm
  have hdetect : detectEntry = detectRange := (funext detectRange_eq_ite).symm
  rw [htiming, hdetect]
  dsimp only
  refine ⟨fun l => ?timing, fun l => ?detect⟩
  case timing =>
    have he := takeTiming_eq l s
    rw [exec_loadTiming_good]
    dsimp only at he
    split_ifs at he ⊢
    case neg => exact request_responds hready _ id he (withClock_settled hsettled _) rfl
    all_goals exact request_responds hready _ id he hsettled rfl
  case detect =>
    by_cases hempty : l.entries = []
    · rw [if_pos hempty, exec_loadDetect_empty id s hempty]
      exact request_responds hready _ id rfl hsettled rfl
    · have he := takeDetect_eq l s
      rw [if_neg hempty, exec_loadDetect_nonempty id s hempty]
      dsimp only at he
      split_ifs at he ⊢
      case neg => exact request_responds hready _ id he (withReader_settled hsettled _) rfl
      all_goals exact request_responds hready _ id he hsettled rfl

end Sys2Proof.Machine

namespace Sys2Proof.Machine

/-! ### LOAD of CALIBRATION (R72) -/

theorem exec_loadCalibration_good (id : Byte) (l : Load RawCal) (s : State) :
    exec (.loadCalibration id (.good l)) s = request (.loadCalibration id (.good l)) id (takeCalibration l) s := rfl

/-- RL has no lower bound to be clamped to: its range begins at 0. -/
theorem clampCal_eq (r : RawCal) : clampCal r =
    ⟨clampPoint r.p0, clampPoint r.p1, clampPoint r.p2, clampPoint r.p3, min 30000 r.rl.toNat⟩ := by
  rw [clampCal, clampNat, Nat.zero_max]

theorem CalRec.rising_iff (r : CalRec) : r.rising = true ↔
    r.p0.intensity < r.p1.intensity ∧ r.p1.intensity < r.p2.intensity ∧ r.p2.intensity < r.p3.intensity := by
  simp only [CalRec.rising, Bool.and_eq_true, decide_eq_true_eq, and_assoc]

/-- What a Calibration load comes to: taken whole, or refused for an index beyond the table or a single record that does
not rise. -/
theorem takeCalibration_eq (l : Load RawCal) (s : State) : takeCalibration l s =
    if loadFits 88 l ∧ ∀ r ∈ l.entries.map clampCal, r.p0.intensity < r.p1.intensity ∧
        r.p1.intensity < r.p2.intensity ∧ r.p2.intensity < r.p3.intensity then
      ({ s with strike := { s.strike with
          calib := overlay s.strike.calib l.first.toNat (l.entries.map clampCal) } },
        loadAnswer (l.entries.map rawCal) (l.entries.map clampCal))
    else (s, .invalid) := by
  simp only [takeCalibration, addresses_iff, List.all_eq_true, CalRec.rising_iff, loadResult_eq, ite_and]

/-- Neither R17 nor R163 looks at the Strike Computer. -/
theorem withStrike_settled {s : State} (h : s.settled) (strike : StrikeComputer) :
    State.settled { s with strike := strike } :=
  settled_same h rfl rfl rfl rfl

/-- Settles O37: the load is taken or refused as `takeCalibration_eq` says, and neither way raises a flag. -/
theorem calibrationLoadsReplaceRecords : Obligations.CalibrationLoadsReplaceRecords := by
  intro id l s hready hsettled point given records
  have hrecords : records = l.entries.map clampCal := (List.map_congr_left fun r _ => clampCal_eq r).symm
  have he := takeCalibration_eq l s
  rw [hrecords, exec_loadCalibration_good]
  split_ifs at he ⊢
  case pos => exact request_responds hready _ id he (withStrike_settled hsettled _) rfl
  case neg => exact request_responds hready _ id he hsettled rfl

end Sys2Proof.Machine

namespace Sys2Proof.Machine

/-! ### Admission (R101, R102) -/

theorem admitOnset_room {r : FireRecord} {s : State} (h : s.sched.queue.length + s.sched.owed + 2 ≤ 256) :
    admitOnset r s = enqueue r (setOwed r.kind (some r.tag) (setOwedCount (s.sched.owed + 1) s)) :=
  if_pos h

theorem admitOnset_full {r : FireRecord} {s : State} (h : 256 < s.sched.queue.length + s.sched.owed + 2) :
    admitOnset r s = raise .queueFull (count .queueRefusals (setRefused r.kind (some r.tag) s)) :=
  if_neg (Nat.not_le.2 h)

theorem admitRelease_owed {r : FireRecord} {s : State} (h : (s.targetTags r.kind).1 = some r.tag) :
    admitRelease r s = enqueue r (setOwed r.kind none (setOwedCount (s.sched.owed - 1) s)) :=
  if_pos h

theorem admitRelease_refused {r : FireRecord} {s : State} (howed : (s.targetTags r.kind).1 ≠ some r.tag)
    (hrefused : (s.targetTags r.kind).2 = some r.tag) : admitRelease r s = setRefused r.kind none s := by
  rw [admitRelease, if_neg howed, if_pos hrefused]

/-! ### The place of a record (R100) -/

theorem enqueue_waits {r : FireRecord} {s : State} (h : s.playTime < r.fire ∨ s.perf.state = .paused) :
    enqueue r s = s.withQueue
      (s.sched.queue.takeWhile (·.fire ≤ r.fire) ++ r :: s.sched.queue.dropWhile (·.fire ≤ r.fire)) := by
  have hwaits : ¬ (r.fire ≤ s.playTime ∧ s.perf.state ≠ .paused) := by
    rintro ⟨hdue, hplays⟩
    exact h.elim (Nat.not_lt.2 hdue) hplays
  rw [← insertRecord_eq]
  exact if_neg hwaits

/-- Nothing of the queue stands before a record that fires before all of it. -/
theorem insertRecord_first {r : FireRecord} {q : List FireRecord} (h : ∀ x ∈ q, r.fire < x.fire) :
    insertRecord r q = r :: q ∧ recordsBefore r q = 0 := by
  cases q with
  | nil => exact ⟨rfl, rfl⟩
  | cons x xs =>
    have hx : ¬ x.fire ≤ r.fire := Nat.not_le.2 (h x List.mem_cons_self)
    simp [insertRecord, recordsBefore, hx]

/-- A record that is due, before every record of the queue, takes the first place and leaves it at once. -/
theorem enqueue_at_once {r : FireRecord} {s : State} (hdue : r.fire ≤ s.playTime) (hplays : s.perf.state ≠ .paused)
    (hq : ∀ x ∈ s.sched.queue, s.playTime < x.fire) : enqueue r s = handRecord r s := by
  obtain ⟨hinsert, hbefore⟩ := insertRecord_first fun x hx => hdue.trans_lt (hq x hx)
  calc enqueue r s
      = dispatchFirst (recordsBefore r s.sched.queue + 1) (s.withQueue (insertRecord r s.sched.queue)) :=
        if_pos ⟨hdue, hplays⟩
    _ = dispatchHead (s.withQueue (r :: s.sched.queue)) := by rw [hinsert, hbefore]; rfl
    _ = handRecord r s := rfl

/-- Settles O42: a kind names its target; then the two ways of each admission and the three of `enqueue`. -/
theorem onsetsReserveTheirReleases : Obligations.OnsetsReserveTheirReleases := by
  refine ⟨fun kind tag s => ?tags, fun r s => ⟨admitOnset_room, admitOnset_full, admitRelease_owed,
    admitRelease_refused, enqueue_waits, fun x rest hq hx hdue hplays => enqueue_behind hq hx hdue hplays,
    enqueue_at_once⟩⟩
  case tags =>
    cases kind with
    | strike k v => exact ⟨rfl, rfl, rfl⟩
    | release k => exact ⟨rfl, rfl, rfl⟩
    | pedalDown p => exact ⟨rfl, rfl, rfl⟩
    | pedalUp p => exact ⟨rfl, rfl, rfl⟩

end Sys2Proof.Machine

namespace Sys2Proof.Machine

/-! ### Limits and free slots (R106) -/

theorem boardLimit_of_params {s : State} {b : Board} {x : BoardParams} (h : (s.board b).params = some x) :
    s.boardLimit b = x.mB := by
  simp [State.boardLimit, h]

theorem totalLimit_of_profile {s : State} {p : Profile} (h : s.port.profile = some p) : s.totalLimit = p.mTot := by
  simp [State.totalLimit, h]

theorem keyBoardFree_of_wire {s : State} {k : Key} {b : Board} {c : Nat} (h : s.keyWire k = some (b, c)) :
    s.keyBoardFree k = s.boardFree b := by
  simp [State.keyBoardFree, h]

theorem keyBoardFree_of_no_wire {s : State} {k : Key} (h : s.keyWire k = none) : s.keyBoardFree k = false := by
  simp [State.keyBoardFree, h]

theorem boardFree_iff (s : State) (b : Board) : s.boardFree b = true ↔ (s.board b).inFlight < s.boardLimit b :=
  decide_eq_true_iff

theorem totalFree_iff (s : State) : s.totalFree = true ↔ s.sched.total < s.totalLimit :=
  decide_eq_true_iff

/-! ### The busy probe's tag (R158) -/

theorem isBusyProbe_iff (s : State) (tag : Option Tag) : s.isBusyProbe tag = true ↔
    ∃ p, s.calib.probe = some p ∧ p.busy = true ∧ tag = some ⟨.probe, p.serial⟩ := by
  simp only [State.isBusyProbe, Option.any_eq_true, Bool.and_eq_true, beq_iff_eq]

/-! ### Pulsing, deferring and parking (R107, R110, R120, R122) -/

theorem takeSlot_of_wire {s : State} {k : Key} {b : Board} {c : Nat} (h : s.keyWire k = some (b, c)) :
    takeSlot k s = { s with
      sched := { s.sched with total := s.sched.total + 1 }
      port := { s.port with boards := s.port.boards.set b { s.board b with inFlight := (s.board b).inFlight + 1 } } } := by
  rw [takeSlot, h]
  rfl

/-- Taking a slot changes no key map. -/
theorem keyWire_takeSlot (k j : Key) (s : State) : (takeSlot k s).keyWire j = s.keyWire j := by
  unfold takeSlot
  split <;> rfl

/-- What pulsing a key with a channel comes to: its slot is taken, PULSE is sent, and it is STRIKING (R122). -/
theorem pulseKey_of_wire {s : State} {k : Key} {b : Board} {c : Nat} (st : Strike) (h : s.keyWire k = some (b, c)) :
    pulseKey k st s = { s with
      keys := s.keys.set k ((s.key k).striking st (s.expiry st.vals.width))
      sched := { s.sched with total := s.sched.total + 1 }
      port := { s.port with boards := s.port.boards.set b { s.board b with inFlight := (s.board b).inFlight + 1 } }
      link := { s.link with sentDrive := s.link.sentDrive ++ [⟨b, c, .pulse st.vals.width⟩] } } := by
  rw [pulseKey, sendKey, keyWire_takeSlot, takeSlot_of_wire h, h]
  rfl

theorem joinDeferral_eq (k : Key) (st : Strike) (s : State) : joinDeferral k st s = { s with
    keys := s.keys.set k { s.key k with phase := .deferred, current := some st.tag }
    sched := { s.sched with deferral :=
      s.sched.deferral.takeWhile (·.strike.fire ≤ st.fire) ++
        ⟨k, st⟩ :: s.sched.deferral.dropWhile (·.strike.fire ≤ st.fire) } } := by
  rw [joinDeferral, insertEntry_eq]
  rfl

/-- A parked strike is counted as superseding when one was pending (R120). -/
theorem park_eq (k : Key) (st : Strike) (s : State) :
    let parked := setKey k { s.key k with pending := some { st with relWait := false } } s
    park k st s = if (s.key k).pending = none then parked else count .supersededStrikes parked := by
  unfold park
  cases (s.key k).pending <;> rfl

/-! ### What a strike reaching a key comes to, by its phase (R119 to R121) -/

theorem strikeReaches_resting {k : Key} {s : State} (st : Strike) (h : (s.key k).phase = .resting) :
    strikeReaches k st s = offer false k st s := by
  rw [strikeReaches, h]

theorem strikeReaches_busy {k : Key} {s : State} (st : Strike)
    (h : (s.key k).phase = .deferred ∨ (s.key k).phase = .striking ∨ (s.key k).phase = .held ∨
      (s.key k).phase = .releasing) : strikeReaches k st s = park k st s := by
  rw [strikeReaches]
  rcases h with h | h | h | h <;> rw [h]

/-- A discarded strike is counted, and ends the probe whose strike it is (R121, R160). -/
theorem strikeReaches_offline {k : Key} {s : State} (st : Strike) (h : (s.key k).phase = .offline) :
    strikeReaches k st s = endProbe (some st.tag) .offline (count .offlineDiscards s) := by
  rw [strikeReaches, h]

/-- An offer without the lateness check asks for a free slot alone (R107). -/
theorem offer_unchecked (k : Key) (st : Strike) (s : State) : offer false k st s =
    if s.keyBoardFree k = true ∧ s.totalFree = true then pulseKey k st s else joinDeferral k st s := by
  simp [offer]

theorem strikeReaches_free {k : Key} {s : State} {b : Board} {c : Nat} (st : Strike) (hphase : (s.key k).phase = .resting)
    (hwire : s.keyWire k = some (b, c)) (hboard : (s.board b).inFlight < s.boardLimit b)
    (htotal : s.sched.total < s.totalLimit) : strikeReaches k st s = pulseKey k st s := by
  have hfree : s.keyBoardFree k = true := (keyBoardFree_of_wire hwire).trans ((boardFree_iff s b).2 hboard)
  rw [strikeReaches_resting st hphase, offer_unchecked, if_pos ⟨hfree, (totalFree_iff s).2 htotal⟩]

/-- A RESTING key's strike waits for the total, for a channel, or for its board. -/
theorem strikeReaches_full {k : Key} {s : State} (st : Strike) (hphase : (s.key k).phase = .resting)
    (hfull : s.totalLimit ≤ s.sched.total ∨ s.keyWire k = none ∨
      ∃ b c, s.keyWire k = some (b, c) ∧ s.boardLimit b ≤ (s.board b).inFlight) :
    strikeReaches k st s = joinDeferral k st s := by
  rw [strikeReaches_resting st hphase, offer_unchecked, if_neg]
  rintro ⟨hboard, htotal⟩
  rcases hfull with hfull | hwire | ⟨b, c, hwire, hfull⟩
  · exact absurd ((totalFree_iff s).1 htotal) (Nat.not_lt.2 hfull)
  · exact absurd hboard (by simp [keyBoardFree_of_no_wire hwire])
  · rw [keyBoardFree_of_wire hwire] at hboard
    exact absurd ((boardFree_iff s b).1 hboard) (Nat.not_lt.2 hfull)

/-- Settles O44: each phase of the key picks one branch of `strikeReaches`, and a RESTING key's the branch of the offer
that its slots decide. -/
theorem strikesReachTheirKeys : Obligations.StrikesReachTheirKeys := by
  intro k st s r keyed
  refine ⟨fun b x => boardLimit_of_params, fun p => totalLimit_of_profile, fun d => rfl, fun tag => isBusyProbe_iff s tag,
    fun b c => strikeReaches_free st, fun b c => pulseKey_of_wire st, strikeReaches_full st, joinDeferral_eq k st s,
    fun hbusy => ?parked, fun hoffline => ?discarded⟩
  case parked => exact (strikeReaches_busy st hbusy).trans (park_eq k st s)
  case discarded => exact (strikeReaches_offline st hoffline).trans (endProbe_eq _ _ _)

/-! ### What a release reaching a key comes to, rule by rule (R124) -/

theorem entryTagged_iff (s : State) (k : Key) (tag : Tag) :
    s.entryTagged k tag = true ↔ ∃ e ∈ s.sched.deferral, e.key = k ∧ e.strike.tag = tag := by
  simp only [State.entryTagged, List.any_eq_true, Bool.and_eq_true, beq_iff_eq]

/-- Rules 1 and 2 of R124 apply: the release's articulation is being driven. -/
def State.drives (s : State) (k : Key) (tag : Tag) : Prop :=
  (s.key k).current = some tag ∧ ((s.key k).phase = .striking ∨ (s.key k).phase = .held)

/-- Rule 3 of R124 applies: the release's strike is on the Deferral List. -/
def State.lists (s : State) (k : Key) (tag : Tag) : Prop :=
  (s.key k).phase = .deferred ∧ ∃ e ∈ s.sched.deferral, e.key = k ∧ e.strike.tag = tag

theorem not_drives_of_lists {s : State} {k : Key} {tag : Tag} (h : s.lists k tag) : ¬ s.drives k tag := by
  simp [State.drives, h.1]

theorem releaseReaches_striking {k : Key} {tag : Tag} {s : State} (hcurrent : (s.key k).current = some tag)
    (hphase : (s.key k).phase = .striking) :
    releaseReaches k tag s = updateKey k (fun r => { r with relWait := true }) s :=
  if_pos ⟨hcurrent, hphase⟩

theorem releaseReaches_held {k : Key} {tag : Tag} {s : State} (hcurrent : (s.key k).current = some tag)
    (hphase : (s.key k).phase = .held) : releaseReaches k tag s = letGo k s := by
  simp [releaseReaches, hcurrent, hphase]

/-- Rules 3 to 5: what is left of R124 for an articulation that is not being driven. -/
theorem releaseReaches_of_not_drives {k : Key} {tag : Tag} {s : State} (h : ¬ s.drives k tag) :
    releaseReaches k tag s =
      if (s.key k).phase = .deferred ∧ s.entryTagged k tag then markEntry k s
      else if (s.key k).pending.any (·.tag == tag) then markPending k s else s := by
  have hstriking : ¬ ((s.key k).current = some tag ∧ (s.key k).phase = .striking) := fun g => h ⟨g.1, .inl g.2⟩
  have hheld : ¬ ((s.key k).current = some tag ∧ (s.key k).phase = .held) := fun g => h ⟨g.1, .inr g.2⟩
  rw [releaseReaches, if_neg hstriking, if_neg hheld]

theorem releaseReaches_listed {k : Key} {tag : Tag} {s : State} (h : s.lists k tag) :
    releaseReaches k tag s = markEntry k s := by
  rw [releaseReaches_of_not_drives (not_drives_of_lists h), if_pos ⟨h.1, (entryTagged_iff s k tag).2 h.2⟩]

/-- Rules 4 and 5: the strike is neither being driven nor on the list. -/
theorem releaseReaches_of_not_lists {k : Key} {tag : Tag} {s : State} (hdriven : ¬ s.drives k tag)
    (hlisted : ¬ s.lists k tag) : releaseReaches k tag s =
      if (s.key k).pending.any (·.tag == tag) then markPending k s else s := by
  have hentry : ¬ ((s.key k).phase = .deferred ∧ s.entryTagged k tag = true) :=
    fun g => hlisted ⟨g.1, (entryTagged_iff s k tag).1 g.2⟩
  rw [releaseReaches_of_not_drives hdriven, if_neg hentry]

theorem markPending_of_some {k : Key} {s : State} {st : Strike} (h : (s.key k).pending = some st) :
    markPending k s = setKey k { s.key k with pending := some { st with relWait := true } } s := by
  rw [markPending, updateKey, h, Option.map_some]

theorem releaseReaches_pending {k : Key} {tag : Tag} {s : State} {st : Strike} (hdriven : ¬ s.drives k tag)
    (hlisted : ¬ s.lists k tag) (hpending : (s.key k).pending = some st) (htag : st.tag = tag) :
    releaseReaches k tag s = setKey k { s.key k with pending := some { st with relWait := true } } s := by
  have hany : (s.key k).pending.any (·.tag == tag) = true := by simp [hpending, htag]
  rw [releaseReaches_of_not_lists hdriven hlisted, if_pos hany, markPending_of_some hpending]

/-- A stale release changes nothing. -/
theorem releaseReaches_stale {k : Key} {tag : Tag} {s : State} (hdriven : ¬ s.drives k tag) (hlisted : ¬ s.lists k tag)
    (hpending : ∀ st, (s.key k).pending = some st → st.tag ≠ tag) : releaseReaches k tag s = s := by
  have hany : ¬ (s.key k).pending.any (·.tag == tag) = true := by
    rw [Option.any_eq_true]
    rintro ⟨st, hst, htag⟩
    exact hpending st hst (beq_iff_eq.1 htag)
  rw [releaseReaches_of_not_lists hdriven hlisted, if_neg hany]

/-- Settles O46: one lemma for each rule of R124. -/
theorem releasesMatchByTag : Obligations.ReleasesMatchByTag := by
  intro k tag s r keyed driven listed
  exact ⟨releaseReaches_striking, releaseReaches_held, releaseReaches_listed, fun st => releaseReaches_pending,
    releaseReaches_stale⟩

end Sys2Proof.Machine

namespace Sys2Proof.Machine

/-! ### Changing one key's record twice -/

theorem setKey_setKey (k : Key) (q r : KeyRec) (s : State) : setKey k q (setKey k r s) = setKey k q s := by
  simp [setKey]

theorem setKey_key (k : Key) (s : State) : setKey k (s.key k) s = s := by
  simp [setKey, State.key]

theorem updateKey_setKey (k : Key) (f : KeyRec → KeyRec) (r : KeyRec) (s : State) :
    updateKey k f (setKey k r s) = setKey k (f r) s := by
  rw [updateKey, key_setKey_self, setKey_setKey]

theorem updateKey_raiseIf (c : Bool) (fl : Flag) (k : Key) (f : KeyRec → KeyRec) (s : State) :
    updateKey k f (raiseIf c fl s) = raiseIf c fl (updateKey k f s) := by
  cases c <;> rfl

theorem updateKey_endProbe (k : Key) (f : KeyRec → KeyRec) (tag : Option Tag) (cause : EndCause) (s : State) :
    updateKey k f (endProbe tag cause s) = endProbe tag cause (updateKey k f s) := by
  have hbusy : (updateKey k f s).isBusyProbe tag = s.isBusyProbe tag := rfl
  rw [endProbe_eq, endProbe_eq, hbusy]
  split <;> rfl

theorem endProbe_keys (tag : Option Tag) (cause : EndCause) (s : State) : (endProbe tag cause s).keys = s.keys := by
  rw [endProbe_eq]
  split <;> rfl

/-- A key's record is read from the keys alone. -/
theorem key_congr {s t : State} {k : Key} (h : t.keys = s.keys) : t.key k = s.key k := by
  rw [State.key, h, State.key]

/-! ### What a rest notice does to the missed run and to a probe (R156) -/

theorem freeze_eq (third : Bool) (k : Key) (s : State) : freeze third k s =
    raiseIf third .sensorFault (updateKey k (fun r => { r with
      adapt := if third then .frozen else r.adapt, faultFlag := r.faultFlag || third }) s) := by
  cases third with
  | true => simp [freeze, raiseIf]
  | false => simpa [freeze, raiseIf, updateKey] using (setKey_key k s).symm

/-- A missed strike is counted; the third in a row freezes the key. -/
theorem missStrike_eq (k : Key) (s : State) :
    let r := s.key k
    let run := min 3 (r.missedRun + 1)
    missStrike k s = raiseIf (run == 3) .sensorFault (count .missedStrikes (setKey k { r with
      missedRun := run
      adapt := if run = 3 then .frozen else r.adapt
      faultFlag := r.faultFlag || run == 3 } s)) := by
  intro r run
  have hcounted : updateKey k (fun r => { r with missedRun := run }) (count .missedStrikes s) =
      setKey k { r with missedRun := run } (count .missedStrikes s) := rfl
  have hfrozen := freeze_eq (run == 3) k (setKey k { r with missedRun := run } (count .missedStrikes s))
  rw [updateKey_setKey] at hfrozen
  simp only [beq_iff_eq] at hfrozen
  exact (congrArg (freeze (run == 3) k) hcounted).trans hfrozen

/-- A key's articulation came from the roll, and its PULSE was sent. -/
def KeyRec.rollPulsed (r : KeyRec) : Prop := (∃ n, r.current = some ⟨.roll, n⟩) ∧ r.pulseSent = true

section
variable {k : Key} {s : State}

theorem restRecord_missed (h : (s.key k).rollPulsed) (hseen : (s.key k).strikeSeen = false)
    (hcut : (s.key k).cutShort = false) : restRecord k s = missStrike k s := by
  obtain ⟨⟨n, hcurrent⟩, hsent⟩ := h
  simp [restRecord, hcurrent, hsent, hseen, hcut]

theorem restRecord_seen (h : (s.key k).rollPulsed) (hseen : (s.key k).strikeSeen = true) :
    restRecord k s = setKey k { s.key k with missedRun := 0 } s := by
  obtain ⟨⟨n, hcurrent⟩, hsent⟩ := h
  simp [restRecord, hcurrent, hsent, hseen, updateKey]

theorem restRecord_cutShort (h : (s.key k).rollPulsed) (hseen : (s.key k).strikeSeen = false)
    (hcut : (s.key k).cutShort = true) : restRecord k s = s := by
  obtain ⟨⟨n, hcurrent⟩, hsent⟩ := h
  simp [restRecord, hcurrent, hsent, hseen, hcut]

/-- A key without an articulation, and a roll articulation without its PULSE, are nothing to the record; asking whether
their tag is the busy probe's says no, so one equation covers them and the probes. -/
theorem restRecord_of_not_rollPulsed (h : ¬ (s.key k).rollPulsed) :
    restRecord k s = endProbe (s.key k).current .rest s := by
  rcases hcurrent : (s.key k).current with _ | ⟨origin, n⟩
  · have hidle : ¬ s.isBusyProbe none = true := by simp [isBusyProbe_iff]
    simp [restRecord, hcurrent, endProbe, hidle]
  · cases origin with
    | probe => simp [restRecord, hcurrent]
    | roll =>
      have hsent : ¬ (s.key k).pulseSent = true := fun hsent => h ⟨⟨n, hcurrent⟩, hsent⟩
      have hidle : ¬ s.isBusyProbe (some ⟨.roll, n⟩) = true := by simp [isBusyProbe_iff]
      simp [restRecord, hcurrent, endProbe, hidle, hsent]

/-- The busy probe's tag is no roll articulation's. -/
theorem not_rollPulsed_of_busy (h : s.isBusyProbe (s.key k).current = true) : ¬ (s.key k).rollPulsed := by
  rintro ⟨⟨n, hroll⟩, -⟩
  obtain ⟨p, -, -, hprobe⟩ := (isBusyProbe_iff s _).1 h
  simp [hroll] at hprobe

/-! ### A rest notice, case by case (R130, R156, R162) -/

/-- Step 1 of R130: the key is RESTING with no timer. -/
def KeyRec.atRest (r : KeyRec) : KeyRec :=
  { r with phase := .resting, relWait := false, pulseEnd := none, holdLimit := none, returnTimer := none }

theorem restNotice_eq (k : Key) (s : State) :
    restNotice k s = updateKey k KeyRec.noticed (restRecord k (setKey k (s.key k).atRest s)) := rfl

/-- What the notice reads of a key, step 1 of R130 leaves alone. -/
theorem rollPulsed_atRest (h : (s.key k).rollPulsed) : ((setKey k (s.key k).atRest s).key k).rollPulsed := by
  rwa [key_setKey_self]

theorem restNotice_missed (h : (s.key k).rollPulsed) (hseen : (s.key k).strikeSeen = false)
    (hcut : (s.key k).cutShort = false) :
    let r := s.key k
    let run := min 3 (r.missedRun + 1)
    restNotice k s = raiseIf (run == 3) .sensorFault (count .missedStrikes (setKey k { r.atRest.noticed with
      missedRun := run
      adapt := if run = 3 then .frozen else r.adapt
      faultFlag := r.faultFlag || run == 3 } s)) := by
  have hrecord := restRecord_missed (rollPulsed_atRest h) (by rwa [key_setKey_self]) (by rwa [key_setKey_self])
  rw [missStrike_eq, key_setKey_self, setKey_setKey] at hrecord
  rw [restNotice_eq, hrecord, updateKey_raiseIf]
  exact congrArg (raiseIf _ _) (congrArg (count _) (updateKey_setKey k _ _ s))

theorem restNotice_seen (h : (s.key k).rollPulsed) (hseen : (s.key k).strikeSeen = true) :
    restNotice k s = setKey k { (s.key k).atRest.noticed with missedRun := 0 } s := by
  rw [restNotice_eq, restRecord_seen (rollPulsed_atRest h) (by rwa [key_setKey_self]), updateKey_setKey, setKey_setKey,
    key_setKey_self]
  rfl

theorem restNotice_cutShort (h : (s.key k).rollPulsed) (hseen : (s.key k).strikeSeen = false)
    (hcut : (s.key k).cutShort = true) : restNotice k s = setKey k (s.key k).atRest.noticed s := by
  rw [restNotice_eq, restRecord_cutShort (rollPulsed_atRest h) (by rwa [key_setKey_self]) (by rwa [key_setKey_self]),
    updateKey_setKey]

/-- The notice of any other articulation, or of none, ends the busy probe it belongs to. -/
theorem restNotice_of_not_rollPulsed (h : ¬ (s.key k).rollPulsed) :
    restNotice k s = endProbe (s.key k).current .rest (setKey k (s.key k).atRest.noticed s) := by
  have hrest : ¬ ((setKey k (s.key k).atRest s).key k).rollPulsed := by rwa [key_setKey_self]
  rw [restNotice_eq, restRecord_of_not_rollPulsed hrest, updateKey_endProbe, updateKey_setKey, key_setKey_self]
  rfl

theorem restNotice_idle (h : ¬ (s.key k).rollPulsed) (hidle : s.isBusyProbe (s.key k).current = false) :
    restNotice k s = setKey k (s.key k).atRest.noticed s := by
  rw [restNotice_of_not_rollPulsed h, endProbe_eq]
  exact if_neg (Bool.eq_false_iff.1 hidle)

theorem restNotice_probe (h : s.isBusyProbe (s.key k).current = true) :
    restNotice k s = raise .probeDone { setKey k (s.key k).atRest.noticed s with
      calib := { s.calib with probe := s.calib.probe.map fun p =>
        { p with busy := false, result := some .none, endCause := some .rest } } } := by
  rw [restNotice_of_not_rollPulsed (not_rollPulsed_of_busy h), endProbe_eq]
  exact if_pos h

/-! ### What follows the notice (R130) -/

theorem pending_restNotice (k : Key) (s : State) : ((restNotice k s).key k).pending = (s.key k).pending :=
  (restNotice_keepsPending k s).pend k

theorem phase_restNotice (k : Key) (s : State) : ((restNotice k s).key k).phase = .resting := by
  by_cases h : (s.key k).rollPulsed
  · cases hseen : (s.key k).strikeSeen with
    | true =>
      rw [restNotice_seen h hseen, key_setKey_self]
      rfl
    | false =>
      cases hcut : (s.key k).cutShort with
      | true =>
        rw [restNotice_cutShort h hseen hcut, key_setKey_self]
        rfl
      | false =>
        rw [restNotice_missed h hseen hcut, key_congr (raiseIf_keys _ _ _), key_congr (count_keys _ _), key_setKey_self]
        rfl
  · rw [restNotice_of_not_rollPulsed h, key_congr (endProbe_keys _ _ _), key_setKey_self]
    rfl

theorem keyRests_without_pending (h : (s.key k).pending = none) : keyRests k s = restNotice k s := by
  rw [← pending_restNotice] at h
  simp [keyRests, h]

theorem keyRests_paused (h : s.perf.state = .paused) : keyRests k s = restNotice k s := by
  have hpaused : (restNotice k s).perf.state = .paused := (Calm.restNotice k s).perf ▸ h
  rw [keyRests]
  split
  · exact if_pos hpaused
  · rfl

/-! Resting takes no time and sets no parameter, so a strike is as late after the notice as before it. -/

theorem lateLimit_restNotice (k : Key) (s : State) : (restNotice k s).lateLimit = s.lateLimit := by
  have htiming : (restNotice k s).clock.timing = s.clock.timing := congrArg Settings.timing (settings_restNotice k s)
  rw [State.lateLimit, htiming, State.lateLimit]

theorem playTime_restNotice (k : Key) (s : State) : (restNotice k s).playTime = s.playTime := by
  have hnow : (restNotice k s).clock.actionTime = s.clock.actionTime :=
    congrArg Settings.actionTime (settings_restNotice k s)
  have hpaused : (restNotice k s).clock.pausedTotal = s.clock.pausedTotal :=
    congrArg Settings.pausedTotal (settings_restNotice k s)
  rw [State.playTime, hnow, hpaused, State.playTime]

/-- An offer that checks lateness drops a late strike; to a RESTING key it is otherwise that of a strike reaching it. -/
theorem offer_checked {t : State} (st : Strike) (h : (t.key k).phase = .resting) :
    offer true k st t = if t.lateLimit < t.playTime - st.fire then countLate st t else strikeReaches k st t := by
  rw [strikeReaches_resting st h]
  simp [offer, State.late]

/-- Outside PAUSED a pending strike is offered, with its lateness checked (R107, R130). -/
theorem keyRests_pending {st : Strike} (h : (s.key k).pending = some st) (hplays : s.perf.state ≠ .paused) :
    let t := updateKey k (fun r => { r with pending := none }) (restNotice k s)
    keyRests k s = if s.lateLimit < s.playTime - st.fire then countLate st t else strikeReaches k st t := by
  intro t
  have hplays' : (restNotice k s).perf.state ≠ .paused := (Calm.restNotice k s).perf ▸ hplays
  have hoffer : keyRests k s = offer true k st t := by
    rw [← pending_restNotice] at h
    simp [keyRests, h, hplays', t]
  have hresting : (t.key k).phase = .resting := by
    rw [key_updateKey_self]
    exact phase_restNotice k s
  have hlimit : t.lateLimit = s.lateLimit := lateLimit_restNotice k s
  have htime : t.playTime = s.playTime := playTime_restNotice k s
  rw [hoffer, offer_checked st hresting, hlimit, htime]
end

/-! ### A REST report (R128, R162) -/

theorem takeRestReport_eq (k : Key) (s : State) :
    let up := setKey k { s.key k with observed := .up } s
    takeRestReport k s =
      if (s.key k).phase = .releasing then keyRests k up else if (s.key k).phase = .offline then s else up := by
  unfold takeRestReport
  cases (s.key k).phase <;> rfl

theorem exec_restReport {board : BitVec 4} {channel : Byte} {k : Key} {s : State}
    (h : s.reportKey board channel = some k) :
    exec (.restReport board channel) s = .next ((settle (takeRestReport k s)).ended s.mgmt.flags) := by
  have harm : exec (.restReport board channel) s = execRestReport board channel s := rfl
  rw [harm, execRestReport, h, finishEvent, dueNotice_eq]

/-- Settles O49: a case of the rest notice for each row of R156's table, then what follows the notice. -/
theorem keysComeToRest : Obligations.KeysComeToRest := by
  intro k s r base keyed pulsed run rested
  refine ⟨restNotice_missed, restNotice_seen, restNotice_cutShort, restNotice_idle, restNotice_probe, fun h => ?rests,
    fun st hpending hplays => ?offered, fun board channel hreport => ?reported⟩
  case rests => exact h.elim keyRests_without_pending keyRests_paused
  case offered => exact keyRests_pending hpending hplays
  case reported => rw [exec_restReport hreport, takeRestReport_eq]; rfl

end Sys2Proof.Machine

namespace Sys2Proof.Machine

/-! ### What a command can do -/

/-- The blocks of the part that a command works on: all but the Management Unit, the links and the command queue. -/
structure SameBlocks (s t : State) : Prop where
  perf : t.perf = s.perf
  clock : t.clock = s.clock
  intake : t.intake = s.intake
  reader : t.reader = s.reader
  expr : t.expr = s.expr
  strike : t.strike = s.strike
  pedals : t.pedals = s.pedals
  sched : t.sched = s.sched
  keys : t.keys = s.keys
  port : t.port = s.port
  calib : t.calib = s.calib

theorem SameBlocks.refl (s : State) : SameBlocks s s := ⟨rfl, rfl, rfl, rfl, rfl, rfl, rfl, rfl, rfl, rfl, rfl⟩

theorem SameBlocks.trans {a b c : State} (h : SameBlocks a b) (g : SameBlocks b c) : SameBlocks a c :=
  ⟨g.1.trans h.1, g.2.trans h.2, g.3.trans h.3, g.4.trans h.4, g.5.trans h.5, g.6.trans h.6, g.7.trans h.7,
    g.8.trans h.8, g.9.trans h.9, g.10.trans h.10, g.11.trans h.11⟩

theorem SameBlocks.withMgmt (m : Management) (s : State) : SameBlocks s { s with mgmt := m } :=
  ⟨rfl, rfl, rfl, rfl, rfl, rfl, rfl, rfl, rfl, rfl, rfl⟩

theorem SameBlocks.withLink (l : Links) (s : State) : SameBlocks s { s with link := l } :=
  ⟨rfl, rfl, rfl, rfl, rfl, rfl, rfl, rfl, rfl, rfl, rfl⟩

theorem SameBlocks.withPending (q : List Instr) (s : State) : SameBlocks s { s with pending := q } :=
  ⟨rfl, rfl, rfl, rfl, rfl, rfl, rfl, rfl, rfl, rfl, rfl⟩

theorem SameBlocks.raise (f : Flag) (s : State) : SameBlocks s (raise f s) := .withMgmt _ s

theorem SameBlocks.count (c : Counter) (s : State) : SameBlocks s (count c s) := .withMgmt _ s

theorem SameBlocks.pushFrame (f : OutFrame) (s : State) : SameBlocks s (pushFrame f s) := .withMgmt _ s

theorem SameBlocks.dueNotice (c : Bool) (s : State) : SameBlocks s (dueNotice c s) := by
  unfold Machine.dueNotice
  split
  · exact .pushFrame _ s
  · exact .refl s

theorem SameBlocks.sendFrame (f : SentFrame) (rest : List OutFrame) (s : State) : SameBlocks s (sendFrame f rest s) :=
  ⟨rfl, rfl, rfl, rfl, rfl, rfl, rfl, rfl, rfl, rfl, rfl⟩

theorem SameBlocks.noteFullReset (s : State) : SameBlocks s (noteFullReset s) := by
  unfold Machine.noteFullReset
  split
  · exact .withMgmt _ s
  · exact .refl s

theorem SameBlocks.respond (id : Byte) (r : Result) (data : List Byte) (c : Bool) (s : State) :
    SameBlocks s (respond id r data c s) :=
  (SameBlocks.pushFrame _ s).trans (.dueNotice _ _)

theorem SameBlocks.finishEvent (s0 s : State) : SameBlocks (settle s) (finishEvent s0 s) := .dueNotice _ _

/-- What the rule of a command can do to the state, before the event settles: one constructor for each rule. -/
inductive RuleStep (s : State) : State → Prop where
  | nothing : RuleStep s s
  | counted (c : Counter) : RuleStep s (count c s)
  | failed (c : Counter) : RuleStep s (raise .linkError (count c s))
  | clearFlags (set : BitVec 16) : RuleStep s (clearFlags set s)
  | setEnables (set : BitVec 16) : RuleStep s { s with mgmt := { s.mgmt with enables := set } }
  | clearCounters : RuleStep s (clearCounters s)
  | offerLine (n : Nat) (cells : Vector Byte 128) : RuleStep s (offerLine n cells s)
  | takeProfile (r : RawProfile) (h : s.port.profile = none) : RuleStep s (takeProfile r s).1
  | takeRoute (l : Load RawRoute) : RuleStep s (takeRoute l s).1
  | takeDetect (l : Load Byte) : RuleStep s (takeDetect l s).1
  | takeShading (l : Load (BitVec 16)) : RuleStep s (takeShading l s).1
  | takeCurve (l : Load (BitVec 16)) : RuleStep s (takeCurve l s).1
  | takeVoicing (l : Load (BitVec 16)) : RuleStep s (takeVoicing l s).1
  | takeCalibration (l : Load RawCal) : RuleStep s (takeCalibration l s).1
  | takeTiming (l : Load (BitVec 32)) : RuleStep s (takeTiming l s).1
  | takeAdaptParam (l : Load (BitVec 16)) : RuleStep s (takeAdaptParam l s).1
  | takeMask (on : Bool) (tracks : List Byte) : RuleStep s (takeMask on tracks s).1
  | takeStart : RuleStep s (takeStart s).1
  | takeStop : RuleStep s (takeStop s)
  | takePause : RuleStep s (takePause s).1
  | pausePoint (h : s.pauseReached = true) : RuleStep s (enterPaused s)
  | takeResume : RuleStep s (takeResume s).1
  | loseSource (h : s.perf.state = .playing) : RuleStep s (loseSource s)
  | takeSetCue (n : Nat) : RuleStep s (takeSetCue n s).1
  | filterCues (c : Nat → Bool) : RuleStep s (setCues (s.perf.cues.filter c) s)
  | clearCues : RuleStep s (setCues [] s)
  | takeTimebase (b : Base) : RuleStep s (takeTimebase b s).1
  | takeLoopOn : RuleStep s (takeLoopOn s)
  | takeLoopOff : RuleStep s (takeLoopOff s).1
  | manual (p : Pedal) (on : Bool) : RuleStep s (changePedal p (fun r => { r with manual := on }) s)
  | inhibit (p : Pedal) (on : Bool) : RuleStep s (changePedal p (fun r => { r with inhibit := on }) s)
  | endEngage (p : Pedal) (h : (s.pedal p).phase = .engaging) : RuleStep s (endEngage p s)
  | takeProbe (r : RawProbe) : RuleStep s (takeProbe r s).1
  | setAdapt (on : Bool) : RuleStep s (setAdapt on s)
  | adaptReset (k : Key) : RuleStep s (updateKey k KeyRec.adaptReset s)
  | thawed (k : Key) : RuleStep s (updateKey k KeyRec.thawed s)
  | adaptResetAll : RuleStep s (mapKeys (fun _ r => r.adaptReset) s)
  | copySnapshots : RuleStep s (copySnapshots s)
  | takeEnable (b : Board) : RuleStep s (takeEnable b s).1
  | takeDisable (b : Board) : RuleStep s (takeDisable b s).1
  | resetPerformance : RuleStep s (resetPerformance s)
  | dispatchHead : RuleStep s (dispatchHead s)
  | endPulse (k : Key) (h : (s.key k).phase = .striking) : RuleStep s (endPulse k s)
  | holdLimit (k : Key) (h : (s.key k).phase = .held) : RuleStep s (raise .holdExpired (letGo k s))
  | endReturn (k : Key) (h : (s.key k).phase = .releasing) : RuleStep s (endReturn k s)
  | takeStrikeReport (k : Key) (m : Nat) : RuleStep s (takeStrikeReport k m s)
  | takeRestReport (k : Key) : RuleStep s (takeRestReport k s)
  | takeFault (b : Board) (reason : FaultReason) : RuleStep s (takeFault b reason s)

/-- The state with the response of a RESET FULL due (R177). -/
def fullResetMarked (s : State) : State := { s with mgmt := { s.mgmt with fullReset := .responding } }

/-- What a command can come to. -/
inductive ExecOutcome (s : State) : State → Prop where
  | powerOn : ExecOutcome s (powerOn s)
  | fullReset (h : s.mgmt.fullReset = .ready) : ExecOutcome s (fullReset s)
  | nothing : ExecOutcome s s
  | waits (c : Instr) : ExecOutcome s (addWaiting c s)
  | event {u : State} (h : RuleStep s u) : ExecOutcome s (finishEvent s u)
  | answered {u : State} (id : Byte) (r : Result) (data : List Byte) (cause : Bool) (hroom : s.responsesDue < 4)
      (h : RuleStep s u) : ExecOutcome s (respond id r data cause (settle u))
  | fullAnswered (id : Byte) (cause : Bool) (hroom : s.responsesDue < 4) :
      ExecOutcome s (respond id .ok [] cause (settle (fullResetMarked s)))
  | response {id : Byte} {r : Result} {data : List Byte} {rest : List OutFrame}
      (h : s.mgmt.outbound = .response id r data :: rest) :
      ExecOutcome s (noteFullReset (sendFrame (.response id r data) rest s))
  | notice {rest : List OutFrame} (h : s.mgmt.outbound = .notice :: rest) :
      ExecOutcome s (sendFrame (noticeNow s) rest s)

theorem onForm_rule {α : Type} {take : α → State → State × Result} {s : State} (f : Form α)
    (htake : ∀ a, RuleStep s (take a s).1) : RuleStep s (onForm f take s).1 := by
  cases f with
  | good a => exact htake a
  | bad => exact .nothing

theorem onBoard_rule {take : Board → State → State × Result} {s : State} (n : Byte)
    (htake : ∀ b, RuleStep s (take b s).1) : RuleStep s (onBoard take n s).1 := by
  unfold onBoard
  split
  · exact .nothing
  · split
    · exact .nothing
    · exact htake _

theorem takeAdaptKey_rule {f : KeyRec → KeyRec} {s : State} (n : Byte) (hf : ∀ k, RuleStep s (updateKey k f s)) :
    RuleStep s (takeAdaptKey f n s).1 := by
  unfold takeAdaptKey
  split
  · exact hf _
  · exact .nothing

/-- A request fails the backlog check, or waits, or is taken with room for its response. -/
theorem admitRequest_outcome {s : State} (c : Instr) {take : State → State}
    (htake : s.responsesDue < 4 → ExecOutcome s (take s)) : ExecOutcome s (admitRequest c take s) := by
  unfold admitRequest failFrame intakeFrame
  split_ifs with hbacklog
  · exact .event (.failed _)
  · exact .waits c
  · exact htake (Nat.not_le.1 hbacklog)

theorem request_outcome {s t : State} {c : Instr} {id : Byte} {effect : State → State × Result}
    (he : RuleStep s (effect s).1) (h : request c id effect s = .next t) : ExecOutcome s t := by
  obtain rfl := Host.Outcome.next.inj h
  exact admitRequest_outcome c fun hroom => .answered _ _ _ _ hroom he

theorem formRequest_outcome {α : Type} {s t : State} {c : Instr} {id : Byte} {f : Form α}
    {take : α → State → State × Result} (htake : ∀ a, RuleStep s (take a s).1)
    (h : request c id (onForm f take) s = .next t) : ExecOutcome s t :=
  request_outcome (onForm_rule f htake) h

theorem readRequest_outcome {s t : State} {c : Instr} {id : Byte} {effect : State → State}
    {data : State → Option (List Byte)} (he : RuleStep s (effect s)) (h : readRequest c id effect data s = .next t) :
    ExecOutcome s t := by
  obtain rfl := Host.Outcome.next.inj h
  refine admitRequest_outcome c fun hroom => ?_
  unfold answerRead
  split
  · exact .answered _ _ _ _ hroom he
  · exact .answered _ _ _ _ hroom .nothing

theorem event_outcome {s u t : State} (hu : RuleStep s u)
    (h : Host.Outcome.next (φ := Fault) (ρ := Refusal) (finishEvent s u) = .next t) : ExecOutcome s t := by
  obtain rfl := Host.Outcome.next.inj h
  exact .event hu

theorem timedEvent_outcome {s t : State} {due : Bool} {act : State → State} (ha : due = true → RuleStep s (act s))
    (h : timedEvent due act s = .next t) : ExecOutcome s t := by
  cases due with
  | true => exact event_outcome (ha rfl) h
  | false => exact Host.Outcome.next.inj h ▸ .nothing

theorem scanLine_outcome {s t : State} {line : BitVec 24} {cells : Vector Byte 128}
    (h : execScanLine line cells s = .next t) : ExecOutcome s t := by
  obtain rfl := Host.Outcome.next.inj h
  unfold intakeFrame
  split
  · exact .waits _
  · exact .event (.offerLine _ _)

theorem clear_outcome {s t : State} {id : Byte} {f : Form (BitVec 16)} (h : execClear id f s = .next t) :
    ExecOutcome s t := by
  cases f with
  | bad => exact request_outcome (effect := fun s => (s, .invalid)) .nothing h
  | good set =>
    obtain rfl := Host.Outcome.next.inj h
    exact admitRequest_outcome _ fun hroom => .answered _ _ _ _ hroom (.clearFlags set)

theorem notices_outcome {s t : State} {id : Byte} {f : Form (BitVec 16)} (h : execNotices id f s = .next t) :
    ExecOutcome s t := by
  cases f with
  | bad => exact request_outcome (effect := fun s => (s, .invalid)) .nothing h
  | good set =>
    obtain rfl := Host.Outcome.next.inj h
    exact admitRequest_outcome _ fun hroom => .answered _ _ _ _ hroom (.setEnables set)

theorem resetFull_outcome {s t : State} {id : Byte} {f : Form Unit} (h : execResetFull id f s = .next t) :
    ExecOutcome s t := by
  cases f with
  | bad => exact request_outcome (effect := fun s => (s, .invalid)) .nothing h
  | good u =>
    obtain rfl := Host.Outcome.next.inj h
    exact admitRequest_outcome _ fun hroom => .fullAnswered id _ hroom

theorem readCounters_outcome {s t : State} {id : Byte} {f : Form Bool} (h : execReadCounters id f s = .next t) :
    ExecOutcome s t := by
  refine readRequest_outcome ?_ h
  split
  · exact .clearCounters
  · exact .nothing

theorem responseSend_outcome {s t : State} (h : execResponseSend s = .next t) : ExecOutcome s t := by
  unfold execResponseSend at h
  split at h
  · next hout => exact Host.Outcome.next.inj h ▸ .response hout
  · exact Host.Outcome.next.inj h ▸ .nothing
  · exact Host.Outcome.next.inj h ▸ .nothing

theorem noticeSend_outcome {s t : State} (h : execNoticeSend s = .next t) : ExecOutcome s t := by
  unfold execNoticeSend at h
  split at h
  · next hout => exact Host.Outcome.next.inj h ▸ .notice hout
  · exact Host.Outcome.next.inj h ▸ .nothing
  · exact Host.Outcome.next.inj h ▸ .nothing

/-- The first of an event's two conditions. -/
theorem of_due {p : Prop} [Decidable p] {b : Bool} (h : (decide p && b) = true) : p :=
  of_decide_eq_true (Bool.and_eq_true_iff.1 h).1

theorem strikeReport_outcome {s t : State} {board : BitVec 4} {channel : Byte} {m : BitVec 16}
    (h : execStrikeReport board channel m s = .next t) : ExecOutcome s t := by
  refine event_outcome ?_ h
  split
  · exact .takeStrikeReport _ _
  · exact .counted _

theorem restReport_outcome {s t : State} {board : BitVec 4} {channel : Byte}
    (h : execRestReport board channel s = .next t) : ExecOutcome s t := by
  refine event_outcome ?_ h
  split
  · exact .takeRestReport _
  · exact .counted _

theorem faultReport_outcome {s t : State} {board : BitVec 4} {reason : FaultReason}
    (h : execFaultReport board reason s = .next t) : ExecOutcome s t := by
  refine event_outcome ?_ h
  split
  · exact .takeFault _ _
  · exact .counted _

/-- Every command comes to one of the outcomes. -/
theorem exec_outcome (c : Instr) {s t : State} (h : exec c s = .next t) : ExecOutcome s t := by
  cases c
  case powerOnReset => exact Host.Outcome.next.inj h ▸ .powerOn
  case scanLine line cells => exact scanLine_outcome h
  case rollLinkFrameError check => exact event_outcome (.failed _) h
  case unknownRequest id kind => exact request_outcome (effect := fun s => (s, .unknown)) .nothing h
  case profile id f =>
    refine formRequest_outcome (fun r => ?_) h
    split
    · exact .nothing
    · next hnone => exact .takeProfile r (by simpa using hnone)
  case loadRoute id f =>
    refine formRequest_outcome (fun l => ?_) h
    split
    · exact .nothing
    · exact .takeRoute l
  case loadDetect id f =>
    refine formRequest_outcome (fun l => ?_) h
    split
    · exact .nothing
    · exact .takeDetect l
  case loadShading id f => exact formRequest_outcome (fun l => .takeShading l) h
  case loadCurve id f => exact formRequest_outcome (fun l => .takeCurve l) h
  case loadVoicing id f => exact formRequest_outcome (fun l => .takeVoicing l) h
  case loadCalibration id f => exact formRequest_outcome (fun l => .takeCalibration l) h
  case loadTiming id f => exact formRequest_outcome (fun l => .takeTiming l) h
  case loadAdaptParam id f => exact formRequest_outcome (fun l => .takeAdaptParam l) h
  case maskSet id f => exact formRequest_outcome (fun l => .takeMask _ l) h
  case maskClear id f => exact formRequest_outcome (fun l => .takeMask _ l) h
  case start id f => exact formRequest_outcome (fun _ => .takeStart) h
  case stop id f => exact formRequest_outcome (fun _ => .takeStop) h
  case pause id f => exact formRequest_outcome (fun _ => .takePause) h
  case pausePointReached => exact timedEvent_outcome (fun hdue => .pausePoint hdue) h
  case resume id f => exact formRequest_outcome (fun _ => .takeResume) h
  case setCue id f => exact formRequest_outcome (fun n => .takeSetCue _) h
  case clearCue id f => exact formRequest_outcome (fun n => .filterCues _) h
  case clearCueAll id f => exact formRequest_outcome (fun _ => .clearCues) h
  case timebaseFree id f => exact formRequest_outcome (fun _ => .takeTimebase _) h
  case timebaseLine id f => exact formRequest_outcome (fun _ => .takeTimebase _) h
  case loopOn id f => exact formRequest_outcome (fun _ => .takeLoopOn) h
  case loopOff id f => exact formRequest_outcome (fun _ => .takeLoopOff) h
  case pedalAssert id f => exact formRequest_outcome (fun p => .manual p true) h
  case pedalDeassert id f => exact formRequest_outcome (fun p => .manual p false) h
  case pedalInhibit id f => exact formRequest_outcome (fun p => .inhibit p true) h
  case pedalUninhibit id f => exact formRequest_outcome (fun p => .inhibit p false) h
  case probe id f => exact formRequest_outcome (fun r => .takeProbe r) h
  case adaptOn id f => exact formRequest_outcome (fun _ => .setAdapt true) h
  case adaptOff id f => exact formRequest_outcome (fun _ => .setAdapt false) h
  case adaptReset id f =>
    exact formRequest_outcome (fun n => takeAdaptKey_rule n fun k => .adaptReset k) h
  case adaptResetAll id f =>
    have hreset : ∀ _ : Unit, RuleStep s (mapKeys (fun _ r => r.adaptReset) s, Result.ok).1 := fun _ => .adaptResetAll
    exact formRequest_outcome (take := fun _ s => (mapKeys (fun _ r => r.adaptReset) s, .ok)) hreset h
  case adaptThaw id f => exact formRequest_outcome (fun n => takeAdaptKey_rule n fun k => .thawed k) h
  case boardEnable id f => exact formRequest_outcome (fun n => onBoard_rule n fun b => .takeEnable b) h
  case boardDisable id f => exact formRequest_outcome (fun n => onBoard_rule n fun b => .takeDisable b) h
  case readKeys id f => exact readRequest_outcome (.copySnapshots) h
  case readCounters id f => exact readCounters_outcome h
  case clear id f => exact clear_outcome h
  case notices id f => exact notices_outcome h
  case resetPerformance id f => exact formRequest_outcome (fun _ => .resetPerformance) h
  case resetFull id f => exact resetFull_outcome h
  case resetFullEffect =>
    obtain rfl := Host.Outcome.next.inj h
    split
    · next hready => exact .fullReset hready
    · exact .nothing
  case responseSend => exact responseSend_outcome h
  case noticeSend => exact noticeSend_outcome h
  case lossTimeout =>
    exact timedEvent_outcome (fun hdue => .loseSource (of_due hdue)) h
  case dispatch => exact timedEvent_outcome (fun _ => .dispatchHead) h
  case pulseEnd k =>
    exact timedEvent_outcome (fun hdue => .endPulse k (of_due hdue)) h
  case holdLimit k =>
    exact timedEvent_outcome (act := fun s => raise .holdExpired (letGo k s)) (fun hdue => .holdLimit k (of_due hdue)) h
  case returnTimer k =>
    exact timedEvent_outcome (fun hdue => .endReturn k (of_due hdue)) h
  case engageEnd p =>
    exact timedEvent_outcome (fun hdue => .endEngage p (of_due hdue)) h
  case strikeReport board channel measured => exact strikeReport_outcome h
  case restReport board channel => exact restReport_outcome h
  case faultReport board reason => exact faultReport_outcome h
  case strayReport => exact event_outcome (.counted _) h
  all_goals exact readRequest_outcome (effect := fun s => s) .nothing h

/-! ### What a step can do -/

/-- The states differ in the links, the queue of commands and the frames that wait, and in nothing else. -/
structure SamePart (s t : State) : Prop where
  blocks : SameBlocks s t
  mgmt : t.mgmt = { s.mgmt with waiting := t.mgmt.waiting }

theorem SamePart.refl (s : State) : SamePart s s := ⟨.refl s, rfl⟩

theorem SamePart.withLink (l : Links) (s : State) : SamePart s { s with link := l } := ⟨.withLink l s, rfl⟩

theorem SamePart.withPending (q : List Instr) (s : State) : SamePart s { s with pending := q } := ⟨.withPending q s, rfl⟩

theorem SamePart.withWaiting (w : List Instr) (s : State) :
    SamePart s { s with mgmt := { s.mgmt with waiting := w } } := ⟨.withMgmt _ s, rfl⟩

/-- What a step can come to: a command's outcome, the passing of time, or nothing. -/
inductive StepOutcome (s : State) : State → Prop where
  | command {s' u t : State} (hbefore : SamePart s s') (h : ExecOutcome s' u) (hafter : SamePart u t) : StepOutcome s t
  | tick {s' : State} (hbefore : SamePart s s') : StepOutcome s (tick s')

theorem StepOutcome.exec {s s' t : State} (hbefore : SamePart s s') {c : Instr} (h : exec c s' = .next t) :
    StepOutcome s t := .command hbefore (exec_outcome c h) (.refl t)

theorem StepOutcome.same {s s' : State} (h : SamePart s s') : StepOutcome s s' := .command h .nothing (.refl s')

theorem SamePart.trans {a b c : State} (h : SamePart a b) (g : SamePart b c) : SamePart a c :=
  ⟨h.blocks.trans g.blocks, by rw [g.mgmt, h.mgmt]⟩

section
variable {s s' t : State} (hs : SamePart s s')
include hs

theorem takeWaiting_outcome (h : takeWaiting s' = .next t) : StepOutcome s t := by
  unfold takeWaiting at h
  split at h
  · split at h
    · next u hu =>
      obtain rfl := Host.Outcome.next.inj h
      exact .command (hs.trans (.withWaiting [] s')) (exec_outcome _ hu) (.withWaiting _ u)
    · cases h
    · cases h
  · exact Host.Outcome.next.inj h ▸ .same hs

theorem takeRollFrame_outcome (h : takeRollFrame s' = .next t) : StepOutcome s t := by
  have hrx : ∀ bytes, SamePart s (setRollRx bytes s') := fun _ => hs.trans (.withLink _ s')
  unfold takeRollFrame at h
  split at h
  · exact .exec (hrx _) h
  · split at h
    · exact .exec (hrx _) h
    · exact .exec (hrx _) h
  · exact Host.Outcome.next.inj h ▸ .same hs

theorem takeActionFrame_outcome (h : takeActionFrame s' = .next t) : StepOutcome s t := by
  unfold takeActionFrame at h
  split at h
  · exact .exec (hs.trans (.withLink _ s')) h
  · exact Host.Outcome.next.inj h ▸ .same hs

theorem takeIdle_outcome (e : IdleEvent) (h : takeIdle e s' = .next t) : StepOutcome s t := by
  cases e with
  | own c => exact .exec hs h
  | waiting => exact takeWaiting_outcome hs h
  | rollFrame => exact takeRollFrame_outcome hs h
  | actionFrame => exact takeActionFrame_outcome hs h
  | tick => exact Host.Outcome.next.inj h ▸ .tick hs
end

/-- Every step comes to one of the outcomes. -/
theorem step_outcome {s t : State} (h : step s = .next t) : StepOutcome s t := by
  unfold step at h
  split at h
  · exact .exec (.withPending _ s) h
  · unfold idle at h
    split at h
    · exact Host.Outcome.next.inj h ▸ .same (.refl s)
    · exact takeIdle_outcome (.refl s) _ h
    · exact takeIdle_outcome (.withLink _ s) _ h

/-! ### What every step keeps -/

/-- What settling, time and the rules of every command keep: a property that the blocks alone decide, and that holds after
each of these operations if it holds before. -/
structure Kept (P : State → Prop) : Prop where
  blocks : ∀ {s t : State}, SameBlocks s t → P s → P t
  settle : ∀ {s}, P s → P (settle s)
  tick : ∀ {s}, P s → P (tick s)
  powerOn : ∀ s, P (powerOn s)
  fullReset : ∀ s, P (fullReset s)
  offerLine : ∀ n cells {s}, P s → P (offerLine n cells s)
  takeProfile : ∀ r {s}, s.port.profile = none → P s → P (takeProfile r s).1
  takeRoute : ∀ l {s}, P s → P (takeRoute l s).1
  takeDetect : ∀ l {s}, P s → P (takeDetect l s).1
  takeShading : ∀ l {s}, P s → P (takeShading l s).1
  takeCurve : ∀ l {s}, P s → P (takeCurve l s).1
  takeVoicing : ∀ l {s}, P s → P (takeVoicing l s).1
  takeCalibration : ∀ l {s}, P s → P (takeCalibration l s).1
  takeTiming : ∀ l {s}, P s → P (takeTiming l s).1
  takeAdaptParam : ∀ l {s}, P s → P (takeAdaptParam l s).1
  takeMask : ∀ on tracks {s}, P s → P (takeMask on tracks s).1
  takeStart : ∀ {s}, P s → P (takeStart s).1
  takeStop : ∀ {s}, P s → P (takeStop s)
  takePause : ∀ {s}, P s → P (takePause s).1
  pausePoint : ∀ {s}, s.pauseReached = true → P s → P (enterPaused s)
  takeResume : ∀ {s}, P s → P (takeResume s).1
  loseSource : ∀ {s}, s.perf.state = .playing → P s → P (loseSource s)
  takeSetCue : ∀ n {s}, P s → P (takeSetCue n s).1
  filterCues : ∀ c {s}, P s → P (setCues (s.perf.cues.filter c) s)
  clearCues : ∀ {s}, P s → P (setCues [] s)
  takeTimebase : ∀ b {s}, P s → P (takeTimebase b s).1
  takeLoopOn : ∀ {s}, P s → P (takeLoopOn s)
  takeLoopOff : ∀ {s}, P s → P (takeLoopOff s).1
  manual : ∀ p on {s}, P s → P (changePedal p (fun r => { r with manual := on }) s)
  inhibit : ∀ p on {s}, P s → P (changePedal p (fun r => { r with inhibit := on }) s)
  endEngage : ∀ p {s}, (s.pedal p).phase = .engaging → P s → P (endEngage p s)
  takeProbe : ∀ r {s}, P s → P (takeProbe r s).1
  setAdapt : ∀ on {s}, P s → P (setAdapt on s)
  adaptReset : ∀ k {s}, P s → P (updateKey k KeyRec.adaptReset s)
  thawed : ∀ k {s}, P s → P (updateKey k KeyRec.thawed s)
  adaptResetAll : ∀ {s}, P s → P (mapKeys (fun _ r => r.adaptReset) s)
  copySnapshots : ∀ {s}, P s → P (copySnapshots s)
  takeEnable : ∀ b {s}, P s → P (takeEnable b s).1
  takeDisable : ∀ b {s}, P s → P (takeDisable b s).1
  resetPerformance : ∀ {s}, P s → P (resetPerformance s)
  dispatchHead : ∀ {s}, P s → P (dispatchHead s)
  endPulse : ∀ k {s}, (s.key k).phase = .striking → P s → P (endPulse k s)
  holdLimit : ∀ k {s}, (s.key k).phase = .held → P s → P (letGo k s)
  endReturn : ∀ k {s}, (s.key k).phase = .releasing → P s → P (endReturn k s)
  takeStrikeReport : ∀ k m {s}, P s → P (takeStrikeReport k m s)
  takeRestReport : ∀ k {s}, P s → P (takeRestReport k s)
  takeFault : ∀ b reason {s}, P s → P (takeFault b reason s)

section
variable {P : State → Prop} (hP : Kept P)
include hP

theorem Kept.rule {s u : State} (h : RuleStep s u) (hs : P s) : P u := by
  cases h with
  | nothing => exact hs
  | counted c => exact hP.blocks (.count c s) hs
  | failed c => exact hP.blocks ((SameBlocks.count c s).trans (.raise _ _)) hs
  | clearFlags set => exact hP.blocks (.withMgmt _ s) hs
  | setEnables set => exact hP.blocks (.withMgmt _ s) hs
  | clearCounters => exact hP.blocks (.withMgmt _ s) hs
  | offerLine n cells => exact hP.offerLine n cells hs
  | takeProfile r h => exact hP.takeProfile r h hs
  | takeRoute l => exact hP.takeRoute l hs
  | takeDetect l => exact hP.takeDetect l hs
  | takeShading l => exact hP.takeShading l hs
  | takeCurve l => exact hP.takeCurve l hs
  | takeVoicing l => exact hP.takeVoicing l hs
  | takeCalibration l => exact hP.takeCalibration l hs
  | takeTiming l => exact hP.takeTiming l hs
  | takeAdaptParam l => exact hP.takeAdaptParam l hs
  | takeMask on tracks => exact hP.takeMask on tracks hs
  | takeStart => exact hP.takeStart hs
  | takeStop => exact hP.takeStop hs
  | takePause => exact hP.takePause hs
  | pausePoint h => exact hP.pausePoint h hs
  | takeResume => exact hP.takeResume hs
  | loseSource h => exact hP.loseSource h hs
  | takeSetCue n => exact hP.takeSetCue n hs
  | filterCues c => exact hP.filterCues c hs
  | clearCues => exact hP.clearCues hs
  | takeTimebase b => exact hP.takeTimebase b hs
  | takeLoopOn => exact hP.takeLoopOn hs
  | takeLoopOff => exact hP.takeLoopOff hs
  | manual p on => exact hP.manual p on hs
  | inhibit p on => exact hP.inhibit p on hs
  | endEngage p h => exact hP.endEngage p h hs
  | takeProbe r => exact hP.takeProbe r hs
  | setAdapt on => exact hP.setAdapt on hs
  | adaptReset k => exact hP.adaptReset k hs
  | thawed k => exact hP.thawed k hs
  | adaptResetAll => exact hP.adaptResetAll hs
  | copySnapshots => exact hP.copySnapshots hs
  | takeEnable b => exact hP.takeEnable b hs
  | takeDisable b => exact hP.takeDisable b hs
  | resetPerformance => exact hP.resetPerformance hs
  | dispatchHead => exact hP.dispatchHead hs
  | endPulse k h => exact hP.endPulse k h hs
  | holdLimit k h => exact hP.blocks (.raise _ _) (hP.holdLimit k h hs)
  | endReturn k h => exact hP.endReturn k h hs
  | takeStrikeReport k m => exact hP.takeStrikeReport k m hs
  | takeRestReport k => exact hP.takeRestReport k hs
  | takeFault b reason => exact hP.takeFault b reason hs

theorem Kept.exec {s t : State} (h : ExecOutcome s t) (hs : P s) : P t := by
  cases h with
  | powerOn => exact hP.powerOn s
  | fullReset _ => exact hP.fullReset s
  | nothing => exact hs
  | waits c => exact hP.blocks (.withMgmt _ s) hs
  | event h => exact hP.blocks (.finishEvent _ _) (hP.settle (hP.rule h hs))
  | answered id r data cause _ h => exact hP.blocks (.respond _ _ _ _ _) (hP.settle (hP.rule h hs))
  | fullAnswered id cause _ =>
    exact hP.blocks (.respond _ _ _ _ _) (hP.settle (hP.blocks (t := fullResetMarked s) (.withMgmt _ s) hs))
  | response _ => exact hP.blocks ((SameBlocks.sendFrame _ _ s).trans (.noteFullReset _)) hs
  | notice _ => exact hP.blocks (.sendFrame _ _ s) hs

/-- What settling, time and every rule keep, every step keeps. -/
theorem step_keeps {s t : State} (hs : P s) (h : step s = .next t) : P t := by
  cases step_outcome h with
  | command hbefore h hafter => exact hP.blocks hafter.blocks (hP.exec h (hP.blocks hbefore.blocks hs))
  | tick hbefore => exact hP.tick (hP.blocks hbefore.blocks hs)
end

end Sys2Proof.Machine

namespace Sys2Proof.Machine

/-! ### What the rests, the arbiter, the pedals and the boards leave alone -/

theorem HandsOn.keys (v) (s : State) : HandsOn s { s with keys := v } := ⟨rfl, rfl, rfl, rfl, rfl, fun _ x => x⟩

theorem HandsOn.mapKeys (f) (s : State) : HandsOn s (mapKeys f s) := .keys _ s

theorem HandsOn.port (p) (s : State) : HandsOn s { s with port := p } := ⟨rfl, rfl, rfl, rfl, rfl, fun _ x => x⟩

theorem HandsOn.countBy (n c) (s : State) : HandsOn s (countBy n c s) := ⟨rfl, rfl, rfl, rfl, rfl, fun _ x => x⟩

theorem HandsOn.ite {c : Prop} [Decidable c] {s t u : State} (h : HandsOn s t) (g : HandsOn s u) :
    HandsOn s (if c then t else u) := by
  split
  · exact h
  · exact g

theorem HandsOn.changePedals (f) (s : State) : HandsOn s (changePedals f s) :=
  (HandsOn.changePedal _ f s).trans (.changePedal _ f _)

/-- Raising flags and counting, and nothing else, happens to the Management Unit: bit 15 of the flags stays as it is, no
counter passes 65,535, and the frames due stay due (R166, R175, R180). -/
structure MgmtGrows (s t : State) : Prop where
  top : t.mgmt.flags.getLsbD 15 = s.mgmt.flags.getLsbD 15
  counters : (∀ c, s.counter c ≤ 65535) → ∀ c, t.counter c ≤ 65535
  outbound : t.mgmt.outbound = s.mgmt.outbound
  fullReset : t.mgmt.fullReset = s.mgmt.fullReset

theorem MgmtGrows.of_eq {s t : State} (h : t.mgmt = s.mgmt) : MgmtGrows s t :=
  ⟨by rw [h], fun hs c => by unfold State.counter; rw [h]; exact hs c, by rw [h], by rw [h]⟩

theorem MgmtGrows.refl (s : State) : MgmtGrows s s := .of_eq rfl

theorem MgmtGrows.trans {a b c : State} (h : MgmtGrows a b) (g : MgmtGrows b c) : MgmtGrows a c :=
  ⟨g.top.trans h.top, fun x => g.counters (h.counters x), g.outbound.trans h.outbound, g.fullReset.trans h.fullReset⟩

theorem MgmtGrows.ite {c : Prop} [Decidable c] {s t u : State} (h : MgmtGrows s t) (g : MgmtGrows s u) :
    MgmtGrows s (if c then t else u) := by
  split
  · exact h
  · exact g

theorem mask_top (f : Flag) : f.mask.getLsbD 15 = false := by
  rw [Flag.getLsbD_mask]
  exact decide_eq_false (Nat.ne_of_gt f.bit_lt)

theorem MgmtGrows.raise (f : Flag) (s : State) : MgmtGrows s (raise f s) :=
  ⟨by rw [Machine.raise, BitVec.getLsbD_or, mask_top, Bool.or_false], fun hs => hs, rfl, rfl⟩

theorem MgmtGrows.countBy (n : Nat) (c : Counter) (s : State) : MgmtGrows s (countBy n c s) := by
  refine ⟨rfl, fun hs d => ?_, rfl, rfl⟩
  rw [counter_countBy]
  split
  · exact Nat.min_le_left _ _
  · exact hs d

/-- What the events of keys, pedals and boards leave alone: what handing on leaves alone, the Fire Queue, the owed releases
and the owed tags. -/
structure Plays (s t : State) : Prop where
  handsOn : HandsOn s t
  grows : MgmtGrows s t
  queue : t.sched.queue = s.sched.queue
  owed : t.sched.owed = s.sched.owed
  keyOwed : ∀ k, (t.key k).owed = (s.key k).owed
  pedalOwed : ∀ p, (t.pedal p).owed = (s.pedal p).owed

theorem Plays.refl (s : State) : Plays s s := ⟨.refl s, .refl s, rfl, rfl, fun _ => rfl, fun _ => rfl⟩

theorem Plays.trans {a b c : State} (h : Plays a b) (g : Plays b c) : Plays a c :=
  ⟨h.handsOn.trans g.handsOn, h.grows.trans g.grows, g.queue.trans h.queue, g.owed.trans h.owed,
    fun k => (g.keyOwed k).trans (h.keyOwed k), fun p => (g.pedalOwed p).trans (h.pedalOwed p)⟩

theorem Plays.ite {c : Prop} [Decidable c] {s t u : State} (h : Plays s t) (g : Plays s u) :
    Plays s (if c then t else u) := by
  split
  · exact h
  · exact g

/-- A change that the queue and the owed tags do not see. -/
theorem Plays.of_eq {s t : State} (hon : HandsOn s t) (grows : MgmtGrows s t) (hsched : t.sched = s.sched)
    (hkeys : t.keys = s.keys) (hpedals : t.pedals = s.pedals) : Plays s t :=
  ⟨hon, grows, by rw [hsched], by rw [hsched], fun k => by rw [key_congr hkeys],
    fun p => by cases p <;> simp only [State.pedal, hpedals]⟩

theorem Plays.raise (f) (s : State) : Plays s (raise f s) := .of_eq (.raise f s) (.raise f s) rfl rfl rfl

theorem Plays.countBy (n c) (s : State) : Plays s (countBy n c s) := .of_eq (.countBy n c s) (.countBy n c s) rfl rfl rfl

theorem Plays.count (c) (s : State) : Plays s (count c s) := .countBy 1 c s

theorem Plays.sendAll (l) (s : State) : Plays s (sendAll l s) := .of_eq (.sendAll l s) (.of_eq rfl) rfl rfl rfl

theorem Plays.port (p) (s : State) : Plays s { s with port := p } := .of_eq (.port p s) (.of_eq rfl) rfl rfl rfl

theorem Plays.updateBoard (b f) (s : State) : Plays s (updateBoard b f s) := .port _ s

theorem Plays.calib (c) (s : State) : Plays s { s with calib := c } :=
  .of_eq ⟨rfl, rfl, rfl, rfl, rfl, fun _ x => x⟩ (.of_eq rfl) rfl rfl rfl

/-- The Deferral List and the slots may change under `Plays`, the Fire Queue and the owed count may not. -/
theorem Plays.sched (c : Scheduler) (s : State) (hq : c.queue = s.sched.queue := by rfl)
    (ho : c.owed = s.sched.owed := by rfl) : Plays s { s with sched := c } := ⟨.sched c s, .of_eq rfl, hq, ho, fun _ => rfl, fun _ => rfl⟩

theorem Plays.keys {v : Vector KeyRec 88} {s : State} (h : ∀ k : Key, v[k].owed = (s.key k).owed) :
    Plays s { s with keys := v } := ⟨.keys v s, .of_eq rfl, rfl, rfl, h, fun _ => rfl⟩

theorem Plays.mapKeys {f} {s : State} (h : ∀ k, (f k (s.key k)).owed = (s.key k).owed) : Plays s (mapKeys f s) :=
  .keys fun k => (congrArg KeyRec.owed (key_mapKeys k f s)).trans (h k)

theorem Plays.upd (k f) (s : State) (h : (f (s.key k)).owed = (s.key k).owed := by rfl) : Plays s (updateKey k f s) := by
  refine ⟨.upd k f s, .of_eq rfl, rfl, rfl, fun j => ?_, fun _ => rfl⟩
  rw [key_updateKey]
  split
  · next e => rw [h, e]
  · rfl

theorem Plays.updPedal (p f) (s : State) (h : (f (s.pedal p)).owed = (s.pedal p).owed := by rfl) : Plays s (updatePedal p f s) := by
  refine ⟨.updPedal p f s, ?_, ?_, ?_, ?_, fun q => ?_⟩
  · cases p <;> exact .of_eq rfl
  · cases p <;> rfl
  · cases p <;> rfl
  · cases p <;> exact fun _ => rfl
  · rw [pedal_updatePedal]
    split
    · next e => rw [h, e]
    · rfl

/-! ### Keys -/

theorem Plays.finishProbe (f) (s : State) : Plays s (finishProbe f s) := by
  unfold Machine.finishProbe
  split
  · exact .ite ((Plays.calib _ s).trans (.raise _ _)) (.refl s)
  · exact .refl s

theorem Plays.endProbe (t c) (s : State) : Plays s (endProbe t c s) := .ite (.finishProbe _ s) (.refl s)

theorem Plays.takeSlot (k) (s : State) : Plays s (takeSlot k s) := by
  unfold Machine.takeSlot
  split
  · exact (Plays.sched _ _).trans (.updateBoard _ _ _)
  · exact .refl s

theorem Plays.pulseKey (k st) (s : State) : Plays s (pulseKey k st s) :=
  ((Plays.takeSlot k s).trans (.sendAll _ _)).trans (.upd _ _ _)

theorem Plays.joinDeferral (k st) (s : State) : Plays s (joinDeferral k st s) := (Plays.sched _ _).trans (.upd _ _ _)

theorem Plays.countLate (st) (s : State) : Plays s (countLate st s) :=
  ((Plays.count _ s).trans (.raise _ _)).trans (.endProbe _ _ _)

theorem Plays.offer (c k st) (s : State) : Plays s (offer c k st s) :=
  .ite (.countLate _ s) (.ite (.pulseKey _ _ s) (.joinDeferral _ _ s))

theorem Plays.park (k st) (s : State) : Plays s (park k st s) :=
  (Plays.ite (.count _ s) (.refl s)).trans (.upd _ _ _)

theorem Plays.strikeReaches (k st) (s : State) : Plays s (strikeReaches k st s) := by
  unfold Machine.strikeReaches
  split
  · exact .offer _ _ _ s
  · exact .park _ _ s
  · exact .park _ _ s
  · exact .park _ _ s
  · exact .park _ _ s
  · exact (Plays.count _ s).trans (.endProbe _ _ _)

theorem Plays.letGo (k) (s : State) : Plays s (letGo k s) := (Plays.sendAll _ s).trans (.upd _ _ _)

theorem Plays.releaseReaches (k t) (s : State) : Plays s (releaseReaches k t s) :=
  .ite (.upd _ _ _) (.ite (.letGo k s) (.ite (.sched _ s) (.ite (.upd _ _ _) (.refl s))))

theorem Plays.freeze (third k) (s : State) : Plays s (freeze third k s) :=
  .ite ((Plays.upd _ _ _).trans (.raise _ _)) (.refl s)

theorem Plays.missStrike (k) (s : State) : Plays s (missStrike k s) :=
  ((Plays.count _ s).trans (.upd _ _ _)).trans (.freeze _ _ _)

theorem Plays.restRecord (k) (s : State) : Plays s (restRecord k s) := by
  unfold Machine.restRecord
  dsimp only
  split
  · exact .ite (.ite (.upd _ _ _) (.ite (.refl s) (.missStrike k s))) (.refl s)
  · exact .endProbe _ _ s
  · exact .refl s

theorem Plays.restNotice (k) (s : State) : Plays s (restNotice k s) :=
  ((Plays.upd _ _ _).trans (.restRecord _ _)).trans (.upd _ _ _)

theorem Plays.foldl {α} (f : State → α → State) (h : ∀ s a, Plays s (f s a)) (l : List α) (s : State) :
    Plays s (l.foldl f s) := by
  induction l generalizing s with
  | nil => exact .refl s
  | cons a l ih => exact (h s a).trans (ih _)

theorem Plays.removeEntry (k) (s : State) : Plays s (removeEntry k s) := .sched _ s

theorem Plays.dropEntry (e) (s : State) : Plays s (dropEntry e s) := by
  have hrested : Plays s (Machine.restNotice e.key (Machine.countLate e.strike (Machine.removeEntry e.key s))) :=
    ((Plays.removeEntry _ s).trans (.countLate _ _)).trans (.restNotice _ _)
  unfold Machine.dropEntry
  dsimp only
  split
  · exact (hrested.trans (.upd _ _ _)).trans (.joinDeferral _ _ _)
  · exact hrested

theorem Plays.arbitrate (n) (s : State) : Plays s (arbitrate n s) := by
  induction n generalizing s with
  | zero => exact .refl s
  | succ n ih =>
    unfold Machine.arbitrate
    split
    · split
      · exact .refl s
      · exact .ite ((Plays.dropEntry _ s).trans (ih _))
          (((Plays.removeEntry _ s).trans (.pulseKey _ _ _)).trans (ih _))
    · exact .refl s

theorem Plays.runArbiter (s : State) : Plays s (runArbiter s) := .arbitrate _ s

theorem Plays.arbiterUnlessPaused (s : State) : Plays s (arbiterUnlessPaused s) := .ite (.refl s) (.runArbiter s)

theorem Plays.keyRests (k) (s : State) : Plays s (keyRests k s) := by
  unfold Machine.keyRests
  dsimp only
  split
  · exact .ite (.restNotice k s) (((Plays.restNotice k s).trans (.upd _ _ _)).trans (.offer _ _ _ _))
  · exact .restNotice k s

theorem Plays.dropSlot (k) (s : State) : Plays s (dropSlot k s) := by
  unfold Machine.dropSlot
  split
  · exact (Plays.sched _ _).trans (.updateBoard _ _ _)
  · exact .refl s

theorem Plays.joinPending (s : State) : Plays s (joinPending s) := by
  refine Plays.foldl _ (fun s k => ?_) _ s
  split
  · exact (Plays.upd _ _ _).trans (.joinDeferral _ _ _)
  · exact .refl s

/-! ### Pedals -/

theorem follows_owed (r : PedalRec) (down : Bool) (width engageEnd : Nat) :
    (r.follows down width engageEnd).1.owed = r.owed := by
  unfold PedalRec.follows
  split <;> rfl

theorem Plays.drivePedal (p) (s : State) : Plays s (drivePedal p s) := by
  rw [drivePedal_eq]
  refine (Plays.sendAll _ s).trans (.updPedal _ _ _ ?_)
  exact follows_owed _ _ _ _

theorem Plays.changePedal {p f} {s : State} (h : (f (s.pedal p)).owed = (s.pedal p).owed) :
    Plays s (changePedal p f s) := (Plays.updPedal _ _ _ h).trans (.drivePedal p _)

theorem Plays.changePedals {f} (h : ∀ r : PedalRec, (f r).owed = r.owed) (s : State) : Plays s (changePedals f s) :=
  (Plays.changePedal (h _)).trans (.changePedal (h _))

theorem Plays.handRecord (r) (s : State) : Plays s (handRecord r s) := by
  unfold Machine.handRecord
  split
  · exact .strikeReaches _ _ s
  · exact .releaseReaches _ _ s
  · exact .changePedal rfl
  · exact .ite (.changePedal rfl) (.refl s)

theorem Plays.endEngage (p) (s : State) : Plays s (endEngage p s) :=
  .ite ((Plays.sendAll _ s).trans (.updPedal _ _ _)) ((Plays.sendAll _ s).trans (.updPedal _ _ _))

theorem Plays.afterPulse (k) (s : State) : Plays s (afterPulse k s) :=
  .ite (.letGo k s) ((Plays.sendAll _ s).trans (.upd _ _ _))

theorem Plays.endPulse (k) (s : State) : Plays s (endPulse k s) :=
  (((Plays.upd _ _ _).trans (.dropSlot _ _)).trans (.arbiterUnlessPaused _)).trans (.afterPulse _ _)

theorem Plays.recordReturn (k kind) (s : State) : Plays s (recordReturn k kind s) := by
  cases kind with
  | timeout => exact (Plays.upd _ _ _).trans (.raise _ _)
  | fixed => exact .refl s

theorem Plays.endReturn (k) (s : State) : Plays s (endReturn k s) := by
  unfold Machine.endReturn
  split
  · exact (Plays.recordReturn _ _ s).trans (.keyRests _ _)
  · exact .refl s

theorem Plays.takeMeasurement (k m) (s : State) : Plays s (takeMeasurement k m s) := by
  have hseen : Plays s (updateKey k (fun r => { r with strikeSeen := true }) s) := .upd _ _ _
  have houtlier : ∀ t, Plays t (takeOutlier k t) := fun t =>
    ((Plays.count _ t).trans (.upd _ _ _)).trans (.freeze _ _ _)
  have herror : ∀ e t, Plays t (takeError k e t) := fun e t => .upd _ _ t
  unfold Machine.takeMeasurement
  dsimp only
  exact .ite ((hseen.trans (.ite (houtlier _) (herror _ _))).trans (.finishProbe _ _))
    (hseen.trans (.ite (houtlier _) (herror _ _)))

theorem Plays.observeStrike (k) (s : State) : Plays s (observeStrike k s) := by
  unfold Machine.observeStrike
  split
  · exact .ite (.upd _ _ _) (.refl s)
  · exact .upd _ _ _
  · exact .upd _ _ _
  · exact .upd _ _ _
  · exact .upd _ _ _
  · exact .refl s

theorem Plays.takeStrikeReport (k m) (s : State) : Plays s (takeStrikeReport k m s) := by
  have hjudged : Plays s (if ((s.key k).pulseSent && !(s.key k).strikeSeen) = true then
      if ((s.key k).cutShort || s.isEndedProbe (s.key k).current) = true then
        updateKey k (fun r => { r with strikeSeen := true }) s
      else Machine.takeMeasurement k m s
    else s) := .ite (.ite (.upd _ _ _) (.takeMeasurement k m s)) (.refl s)
  unfold Machine.takeStrikeReport
  dsimp only
  refine Plays.trans ?_ (.observeStrike k _)
  split
  · exact hjudged
  · exact hjudged
  · exact hjudged
  · exact .refl s
  · exact .refl s
  · exact .refl s

theorem Plays.takeRestReport (k) (s : State) : Plays s (takeRestReport k s) := by
  unfold Machine.takeRestReport
  split
  · exact .refl s
  · exact (Plays.upd _ _ _).trans (.keyRests _ _)
  all_goals exact .upd _ _ _

theorem Plays.disableKeys (b) (s : State) : Plays s (disableKeys b s) := by
  have hkeys : ∀ (c : Prop) [Decidable c] (r : KeyRec), (if c then r.disabled else r).owed = r.owed := fun c _ r => by
    split <;> rfl
  have hprobes : Plays s (endRemovedProbes b s) := .ite (.finishProbe _ s) (.refl s)
  exact (hprobes.trans (.countBy _ _ _)).trans ((Plays.sched _ _).trans (.mapKeys fun k => hkeys _ _))

theorem Plays.disablePedals (b) (s : State) : Plays s (disablePedals b s) :=
  (Plays.ite (.updPedal _ _ _) (.refl s)).trans (.ite (.updPedal _ _ _) (.refl _))

theorem Plays.freeBoard (b) (s : State) : Plays s (freeBoard b s) := (Plays.sched _ _).trans (.updateBoard _ _ _)

theorem Plays.disableBoard (b r f) (s : State) : Plays s (disableBoard b r f s) :=
  ((Plays.sendAll _ s).trans (.updateBoard _ _ _)).trans
    ((((Plays.disableKeys _ _).trans (.disablePedals _ _)).trans (.freeBoard _ _)).trans (.arbiterUnlessPaused _))

theorem Plays.enableKeys (b) (s : State) : Plays s (enableKeys b s) :=
  .mapKeys fun k => by split <;> rfl

theorem Plays.enableBoard (b) (s : State) : Plays s (enableBoard b s) :=
  ((Plays.updateBoard _ _ s).trans (.enableKeys b _)).trans
    ((Plays.ite (.drivePedal _ _) (.refl _)).trans (.ite (.drivePedal _ _) (.refl _)))

theorem Plays.takeFault (b r) (s : State) : Plays s (takeFault b r s) :=
  (Plays.ite (.disableBoard _ _ _ s) (.updateBoard _ _ s)).trans (.raise _ _)

theorem Plays.takeEnable (b) (s : State) : Plays s (takeEnable b s).1 := by
  unfold Machine.takeEnable
  have hback : Plays s (if s.perf.state = .playing then (s, Result.busy) else (Machine.enableBoard b s, Result.ok)).1 := by
    split
    · exact .refl s
    · exact .enableBoard b s
  split
  · exact .refl s
  · exact hback
  · exact hback
  · exact hback
  · split <;> exact .refl s

theorem Plays.takeDisable (b) (s : State) : Plays s (takeDisable b s).1 := by
  unfold Machine.takeDisable
  split
  · exact .disableBoard _ _ _ s
  · exact .refl s

end Sys2Proof.Machine

namespace Sys2Proof.Machine

/-! ### The parts of `performanceSound` -/

/-- The loss timer runs exactly in PLAYING, and a pause point is held only there (R6, R11). -/
def PerfControl.timersSound (p : PerfControl) : Prop :=
  (p.lossTimer ≠ none ↔ p.state = .playing) ∧ (p.pausePoint ≠ none → p.state = .playing)

/-- The cues stand in ascending order and number at most 8 (R1). -/
def PerfControl.cuesSound (p : PerfControl) : Prop := p.cues.Pairwise (· < ·) ∧ p.cues.length ≤ 8

/-- Play time does not pass action time, nor action time its maximum (R19, R20). -/
def LineClock.timesSound (c : LineClock) : Prop := c.pausedTotal ≤ c.actionTime ∧ c.actionTime ≤ maxTime

/-- LINE in force or pending keeps the loop running (R25). -/
def LineClock.baseSound (c : LineClock) : Prop := c.base = .line ∨ c.switch = some .line → c.loop.mode ≠ .off

/-- LOCKED implies TRACKING, and the runs and P_est stay in their ranges (R23, R27, R30). -/
structure LoopRec.Sound (l : LoopRec) (pNom : Nat) : Prop where
  locked : l.locked = true → l.mode = .tracking
  off : l.mode = .off → l.goodRun = 0 ∧ l.badRun = 0
  acquiring : l.mode = .acquiring → l.goodRun < 16 ∧ l.badRun = 0
  tracking : l.mode = .tracking → l.goodRun ≤ 32 ∧ l.badRun < 4
  period : l.mode ≠ .off → pNom * 224 ≤ l.pEst ∧ l.pEst ≤ pNom * 288

/-- `performanceSound`, part by part. -/
structure PerfParts (s : State) : Prop where
  timers : s.perf.timersSound
  cues : s.perf.cuesSound
  times : s.clock.timesSound
  noSwitch : s.perf.state = .stopped → s.clock.switch = none
  base : s.clock.baseSound
  loop : s.clock.loop.Sound s.pNom
  inForce : s.perf.state ≠ .stopped → s.reader.inForce = s.reader.route.map (·.function)

theorem performanceSound_iff (s : State) : s.performanceSound ↔ PerfParts s := by
  constructor
  · rintro ⟨h1, h2, h3, h4, h5, h6, h7, h8, h9, h10, h11, h12, h13, h14⟩
    exact ⟨⟨h1, h2⟩, ⟨h3, h4⟩, ⟨h5, h6⟩, h7, h8, ⟨h9, h10, h11, h12, h13⟩, h14⟩
  · rintro ⟨⟨h1, h2⟩, ⟨h3, h4⟩, ⟨h5, h6⟩, h7, h8, ⟨h9, h10, h11, h12, h13⟩, h14⟩
    exact ⟨h1, h2, h3, h4, h5, h6, h7, h8, h9, h10, h11, h12, h13, h14⟩

theorem PerfParts.congr {s t : State} (h : PerfParts s) (hperf : t.perf = s.perf) (hclock : t.clock = s.clock)
    (hroute : t.reader.route = s.reader.route) (hforce : t.reader.inForce = s.reader.inForce) : PerfParts t where
  timers := hperf ▸ h.timers
  cues := hperf ▸ h.cues
  times := hclock ▸ h.times
  noSwitch := by rw [hperf, hclock]; exact h.noSwitch
  base := hclock ▸ h.base
  loop := by unfold State.pNom; rw [hclock]; exact h.loop
  inForce := by rw [hperf, hroute, hforce]; exact h.inForce

/-- Handing on touches none of the parts. -/
theorem PerfParts.handsOn {s t : State} (h : PerfParts s) (hon : HandsOn s t) : PerfParts t :=
  h.congr hon.perf hon.clock (by rw [hon.reader]) (by rw [hon.reader])

/-! ### Performance Control alone -/

/-- Another Performance Control is sound over the same clock and reader if its timers and cues are, and if it is STOPPED
only where the old one was or where no switch is pending. -/
theorem PerfParts.withPerf {s : State} (h : PerfParts s) {p : PerfControl} (htimers : p.timersSound) (hcues : p.cuesSound)
    (hstopped : p.state = .stopped → s.clock.switch = none) (hforce : p.state ≠ .stopped → s.perf.state ≠ .stopped) :
    PerfParts { s with perf := p } where
  timers := htimers
  cues := hcues
  times := h.times
  noSwitch := hstopped
  base := h.base
  loop := h.loop
  inForce hp := h.inForce (hforce hp)

theorem insertCue_sound {p : PerfControl} (h : p.cuesSound) {n : Nat} (hn : n ∉ p.cues) (hroom : p.cues.length < 8) :
    (insertCue n p.cues).Pairwise (· < ·) ∧ (insertCue n p.cues).length ≤ 8 := by
  have hsorted : ∀ l : List Nat, l.Pairwise (· < ·) → n ∉ l →
      (insertCue n l).Pairwise (· < ·) ∧ (∀ x ∈ insertCue n l, x = n ∨ x ∈ l) ∧ (insertCue n l).length = l.length + 1 := by
    intro l hl hn
    induction l with
    | nil => simp [insertCue]
    | cons x xs ih =>
      obtain ⟨hx, hxs⟩ := List.pairwise_cons.1 hl
      simp only [List.mem_cons, not_or] at hn
      obtain ⟨hsort, hmem, hlen⟩ := ih hxs hn.2
      unfold insertCue
      split
      · next hlt =>
        refine ⟨List.pairwise_cons.2 ⟨fun y hy => ?_, hsort⟩, fun y hy => ?_, by simp [hlen]⟩
        · rcases hmem y hy with rfl | hy
          · exact hlt
          · exact hx y hy
        · rcases List.mem_cons.1 hy with rfl | hy
          · simp
          · rcases hmem y hy with rfl | hy <;> simp [*]
      · next hge =>
        have hlt : n < x := by omega
        refine ⟨List.pairwise_cons.2 ⟨fun y hy => ?_, hl⟩, fun y hy => by simpa using hy, rfl⟩
        rcases List.mem_cons.1 hy with rfl | hy
        · exact hlt
        · exact hlt.trans (hx y hy)
  obtain ⟨hsort, -, hlen⟩ := hsorted p.cues h.1 hn
  exact ⟨hsort, by omega⟩

theorem PerfParts.setCues {s : State} (h : PerfParts s) {cues : List Nat}
    (hcues : cues.Pairwise (· < ·) ∧ cues.length ≤ 8) : PerfParts (setCues cues s) :=
  h.withPerf (p := { s.perf with cues := cues }) h.timers hcues h.noSwitch id

theorem PerfParts.filterCues {s : State} (h : PerfParts s) (c : Nat → Bool) :
    PerfParts (Machine.setCues (s.perf.cues.filter c) s) :=
  h.setCues ⟨h.cues.1.filter _, (List.length_filter_le _ _).trans h.cues.2⟩

theorem PerfParts.takeSetCue {s : State} (h : PerfParts s) (n : Nat) : PerfParts (takeSetCue n s).1 := by
  unfold Machine.takeSetCue
  split_ifs with hmem hfull
  · exact h
  · exact h
  · exact h.setCues (insertCue_sound h.cues (by simpa using hmem) (by simpa [cueCapacity] using hfull))

/-! ### The lock loop -/

/-- A clamped period lies in its range (R27). -/
theorem clampPeriod_range (pNom : Nat) (p : Int) :
    pNom * 224 ≤ clampPeriod pNom p ∧ clampPeriod pNom p ≤ pNom * 288 := by
  unfold clampPeriod clampInt
  omega

theorem LoopRec.Sound.reacquire {l : LoopRec} {pNom : Nat} (h : l.Sound pNom) (hmode : l.mode ≠ .off) (t : Treatment) :
    LoopRec.Sound { l.reacquire with treatment := t } pNom where
  locked e := by simp [LoopRec.reacquire] at e
  off e := by simp [LoopRec.reacquire] at e
  acquiring _ := by simp [LoopRec.reacquire]
  tracking e := by simp [LoopRec.reacquire] at e
  period _ := h.period hmode

/-- A loop in ACQUIRING whose runs and period are in their ranges. -/
theorem LoopRec.Sound.of_acquiring {l : LoopRec} {pNom : Nat} (hmode : l.mode = .acquiring) (hlocked : l.locked = false)
    (hgood : l.goodRun < 16) (hbad : l.badRun = 0) (hperiod : pNom * 224 ≤ l.pEst ∧ l.pEst ≤ pNom * 288) :
    l.Sound pNom where
  locked e := by simp [hlocked] at e
  off e := by simp [hmode] at e
  acquiring _ := ⟨hgood, hbad⟩
  tracking e := by simp [hmode] at e
  period _ := hperiod

/-- A loop in TRACKING whose runs and period are in their ranges. -/
theorem LoopRec.Sound.of_tracking {l : LoopRec} {pNom : Nat} (hmode : l.mode = .tracking)
    (hgood : l.goodRun ≤ 32) (hbad : l.badRun < 4) (hperiod : pNom * 224 ≤ l.pEst ∧ l.pEst ≤ pNom * 288) :
    l.Sound pNom where
  locked _ := hmode
  off e := by simp [hmode] at e
  acquiring e := by simp [hmode] at e
  tracking _ := ⟨hgood, hbad⟩
  period _ := hperiod

theorem LoopRec.Sound.not_locked {l : LoopRec} {pNom : Nat} (h : l.Sound pNom) (hmode : l.mode ≠ .tracking) :
    l.locked = false := Bool.eq_false_iff.2 fun e => hmode (h.locked e)

theorem acquire_sound {pNom pred : Nat} {e : Int} {l : LoopRec} (h : l.Sound pNom) (hmode : l.mode = .acquiring) :
    (acquire pNom pred e l).Sound pNom ∧ (acquire pNom pred e l).mode ≠ .off := by
  have hlocked := h.not_locked (by simp [hmode])
  have hperiod := clampPeriod_range pNom (l.pEst + e * 16)
  obtain ⟨-, hbad⟩ := h.acquiring hmode
  unfold acquire
  dsimp only
  generalize hgood : (if e.natAbs ≤ pNom / 32 then l.goodRun + 1 else 0) = good
  split
  · exact ⟨.of_tracking rfl (by simp) (by simp) hperiod, by simp⟩
  · exact ⟨.of_acquiring hmode hlocked (by dsimp only; omega) hbad hperiod, by simp [hmode]⟩

theorem track_sound {pNom pred : Nat} {e : Int} {l : LoopRec} (hmode : l.mode = .tracking) :
    (track pNom pred e l).Sound pNom ∧ (track pNom pred e l).mode ≠ .off := by
  have hperiod := clampPeriod_range pNom (l.pEst + e * 2)
  unfold track
  dsimp only
  generalize hgood : (if e.natAbs ≤ pNom / 64 then min 32 (l.goodRun + 1) else 0) = good
  generalize (if pNom / 16 < e.natAbs then l.badRun + 1 else 0) = bad
  have hle : good ≤ 32 := by split at hgood <;> omega
  split
  · exact ⟨.of_acquiring rfl rfl (by simp) rfl hperiod, by simp⟩
  · exact ⟨.of_tracking hmode hle (by dsimp only; omega) hperiod, by simp [hmode]⟩

theorem measureLine_sound {pNom arrival g : Nat} {l : LoopRec} (h : l.Sound pNom) (hmode : l.mode ≠ .off) :
    (measureLine pNom arrival g l).Sound pNom ∧ (measureLine pNom arrival g l).mode ≠ .off := by
  unfold measureLine
  dsimp only
  split
  · exact ⟨.of_acquiring rfl rfl (by simp) rfl (h.period hmode), by simp⟩
  · cases hm : l.mode with
    | off => exact absurd hm hmode
    | acquiring => exact acquire_sound h hm
    | tracking => exact track_sound hm

/-- The phase, the treatment and the last error are not the loop's soundness. -/
theorem LoopRec.Sound.congr {l l' : LoopRec} {pNom : Nat} (h : l.Sound pNom) (hmode : l'.mode = l.mode)
    (hlocked : l'.locked = l.locked) (hgood : l'.goodRun = l.goodRun) (hbad : l'.badRun = l.badRun)
    (hperiod : l'.pEst = l.pEst) : l'.Sound pNom := by
  obtain ⟨h1, h2, h3, h4, h5⟩ := h
  constructor <;> simpa only [hmode, hlocked, hgood, hbad, hperiod]

theorem onLine_sound {pNom arrival g : Nat} {l : LoopRec} (h : l.Sound pNom) :
    (l.onLine pNom arrival g).Sound pNom ∧ (l.mode ≠ .off → (l.onLine pNom arrival g).mode ≠ .off) := by
  unfold LoopRec.onLine
  split
  · exact ⟨h, id⟩
  · next hmode =>
    split
    · exact ⟨h.congr rfl rfl rfl rfl rfl, id⟩
    · exact ⟨h.congr rfl rfl rfl rfl rfl, id⟩
    · exact ⟨(measureLine_sound h hmode).1, fun _ => (measureLine_sound h hmode).2⟩

theorem onFirstLine_sound {pNom arrival : Nat} {l : LoopRec} (h : l.Sound pNom) :
    (l.onFirstLine arrival).Sound pNom ∧ (l.mode ≠ .off → (l.onFirstLine arrival).mode ≠ .off) := by
  unfold LoopRec.onFirstLine
  split
  · exact ⟨h, id⟩
  · exact ⟨h.congr rfl rfl rfl rfl rfl, id⟩

/-! ### The Line Clock -/

/-- Another clock of the same times and nominal period is sound under the same state if its base and loop are, and if a
pending switch is new only outside STOPPED. -/
theorem PerfParts.withClock {s t : State} (h : PerfParts s) (hperf : t.perf = s.perf) (hreader : t.reader = s.reader)
    (htimes : t.clock.actionTime = s.clock.actionTime ∧ t.clock.pausedTotal = s.clock.pausedTotal)
    (hswitch : s.perf.state = .stopped → t.clock.switch = none) (hbase : t.clock.baseSound)
    (hloop : t.clock.loop.Sound t.pNom) : PerfParts t where
  timers := hperf ▸ h.timers
  cues := hperf ▸ h.cues
  times := by unfold LineClock.timesSound; rw [htimes.1, htimes.2]; exact h.times
  noSwitch := by rw [hperf]; exact hswitch
  base := hbase
  loop := hloop
  inForce := by rw [hperf, hreader]; exact h.inForce

theorem PerfParts.completeSwitch {s : State} (h : PerfParts s) :
    PerfParts (completeSwitch s) ∧ (completeSwitch s).clock.switch = none := by
  unfold Machine.completeSwitch
  split
  · next b hb =>
    refine ⟨h.withClock rfl rfl ⟨rfl, rfl⟩ (fun _ => rfl) ?_ h.loop, rfl⟩
    rintro (hline | hline)
    · exact h.base (.inr (by rw [hb]; exact congrArg some hline))
    · cases hline
  · next hnone => exact ⟨h, hnone⟩

theorem setLoop_clock (l : LoopRec) (s : State) : (setLoop l s).clock = { s.clock with loop := l } :=
  (setLoop_spec l s).1

theorem PerfParts.setLoop {s : State} (h : PerfParts s) {l : LoopRec} (hl : l.Sound s.pNom)
    (hmode : s.clock.base = .line ∨ s.clock.switch = some .line → l.mode ≠ .off) : PerfParts (setLoop l s) := by
  have hperf : (Machine.setLoop l s).perf = s.perf := by simp [Machine.setLoop]
  have hreader : (Machine.setLoop l s).reader = s.reader := by simp [Machine.setLoop]
  have hnom : (Machine.setLoop l s).pNom = s.pNom := by unfold State.pNom; rw [setLoop_clock]
  refine h.withClock hperf hreader ?_ ?_ ?_ ?_
  · rw [setLoop_clock]; exact ⟨rfl, rfl⟩
  · rw [setLoop_clock]; exact h.noSwitch
  · rw [setLoop_clock]; exact hmode
  · rw [hnom, setLoop_clock]; exact hl

theorem PerfParts.reacquire {s : State} (h : PerfParts s) (t : Treatment) : PerfParts (reacquire t s) := by
  unfold Machine.reacquire
  split
  · exact h
  · next hmode => exact h.setLoop (h.loop.reacquire hmode t) fun _ => by simp [LoopRec.reacquire]

theorem PerfParts.takeLoopOn {s : State} (h : PerfParts s) : PerfParts (takeLoopOn s) := by
  unfold Machine.takeLoopOn
  split
  · next hmode =>
    refine h.setLoop (.of_acquiring rfl (h.loop.not_locked (by simp [hmode])) (by simp) rfl ?_) fun _ => by simp
    dsimp only
    omega
  · exact h

theorem PerfParts.takeLoopOff {s : State} (h : PerfParts s) : PerfParts (takeLoopOff s).1 := by
  unfold Machine.takeLoopOff
  split_ifs with hbase hmode
  · exact h
  · exact h
  · exact h.setLoop ⟨by simp, by simp, by simp, by simp, by simp⟩ fun hline => absurd hline hbase

theorem PerfParts.takeTimebase {s : State} (h : PerfParts s) (b : Base) : PerfParts (takeTimebase b s).1 := by
  unfold Machine.takeTimebase
  split_ifs with hswitch hloop hsame hstate
  · exact h
  · exact h
  · exact h
  · refine h.withClock rfl rfl ⟨rfl, rfl⟩ h.noSwitch ?_ h.loop
    rintro (hline | hline)
    · intro hoff
      exact hloop ⟨hline, by rw [show s.clock.loop.mode = .off from hoff]; simp⟩
    · exact h.base (.inr hline)
  · refine h.withClock rfl rfl ⟨rfl, rfl⟩ (fun e => absurd e hstate) ?_ h.loop
    rintro (hline | hline)
    · exact h.base (.inl hline)
    · intro hoff
      exact hloop ⟨Option.some.inj hline, by rw [show s.clock.loop.mode = .off from hoff]; simp⟩

theorem PerfParts.takeTiming {s : State} (h : PerfParts s) (l : Load (BitVec 32)) : PerfParts (takeTiming l s).1 := by
  rw [takeTiming_eq]
  dsimp only
  split_ifs with hfits hleads hdelay hperiod
  · exact h
  · exact h
  · exact h
  · refine h.withClock rfl rfl ⟨rfl, rfl⟩ h.noSwitch h.base ?_
    refine ⟨h.loop.locked, h.loop.off, h.loop.acquiring, h.loop.tracking, fun hmode => ?_⟩
    have hsame := not_not.1 (not_and_or.1 hperiod |>.resolve_right (not_not.2 hmode))
    have hrange := h.loop.period hmode
    unfold State.pNom at hrange ⊢
    dsimp only
    rw [hsame]
    exact hrange
  · exact h

theorem PerfParts.tick {s : State} (h : PerfParts s) : PerfParts (tick s) := by
  unfold Machine.tick
  split
  · next hlt =>
    refine ⟨h.timers, h.cues, ?_, h.noSwitch, h.base, h.loop, h.inForce⟩
    obtain ⟨hle, -⟩ := h.times
    unfold LineClock.timesSound
    dsimp only
    split <;> omega
  · exact h

end Sys2Proof.Machine

namespace Sys2Proof.Machine

/-! ### An accepted line and Performance Control -/

/-- A switch that completes at the line leaves the base sound: LINE was pending, so the loop runs. -/
theorem PerfParts.stampedClock {s : State} (h : PerfParts s) {l : LoopRec} (hl : l.Sound s.pNom)
    (hmode : s.clock.loop.mode ≠ .off → l.mode ≠ .off) (n t : Nat) {s' : State} (hclock : s'.clock = s.clock)
    (hperf : s'.perf = s.perf) (hreader : s'.reader = s.reader) :
    PerfParts (recordLine n t (switchAt t l s')) := by
  obtain ⟨hc, -, -, hrest⟩ := recordLine_switchAt n t l s'
  have hp : (recordLine n t (switchAt t l s')).perf = s.perf := (congrArg State.perf hrest).trans hperf
  have hr : (recordLine n t (switchAt t l s')).reader = s.reader := (congrArg State.reader hrest).trans hreader
  have hnom : (recordLine n t (switchAt t l s')).pNom = s.pNom := by unfold State.pNom; rw [hc, hclock]
  rw [hclock] at hc
  refine h.withClock hp hr ?_ ?_ ?_ ?_
  · rw [hc]; exact ⟨rfl, rfl⟩
  · rw [hc]; exact fun _ => rfl
  · rw [hc]
    rintro (hline | hline)
    · refine hmode (h.base ?_)
      cases hs : s.clock.switch with
      | none => exact .inl (by simpa [hs] using hline)
      | some b => exact .inr (by simpa [hs] using hline)
    · cases hline
  · rw [hnom, hc]; exact hl.congr rfl rfl rfl rfl rfl

theorem PerfParts.stampLine {s : State} (h : PerfParts s) (n : Nat) :
    PerfParts (stampLine n s) ∧ (stampLine n s).perf = s.perf := by
  have hperf : ∀ t l (s' : State), s'.perf = s.perf → (recordLine n t (switchAt t l s')).perf = s.perf := fun t l s' e =>
    (congrArg State.perf (recordLine_switchAt n t l s').2.2.2).trans e
  unfold Machine.stampLine
  split
  · exact ⟨h.stampedClock (onFirstLine_sound h.loop).1 (onFirstLine_sound h.loop).2 _ _ rfl rfl rfl, hperf _ _ _ rfl⟩
  · exact ⟨h.stampedClock (onFirstLine_sound h.loop).1 (onFirstLine_sound h.loop).2 _ _ rfl rfl rfl, hperf _ _ _ rfl⟩
  · next last _ _ =>
    dsimp only
    have hcounted : HandsOn s (if 8 < n - last.line - 1 then count .gapEvents s else s) := .ite (.count _ s) (.refl s)
    exact ⟨h.stampedClock (onLine_sound h.loop).1 (onLine_sound h.loop).2 _ _ hcounted.clock hcounted.perf hcounted.reader,
      hperf _ _ _ hcounted.perf⟩

theorem setPausePoint_playing {s : State} (h : PerfParts s) (hp : s.perf.state = .playing) (t : Nat) :
    PerfParts (setPausePoint t s) ∧ (setPausePoint t s).perf.state = .playing := by
  unfold setPausePoint
  split
  · exact ⟨h, hp⟩
  · exact ⟨h.withPerf ⟨h.timers.1, fun _ => hp⟩ h.cues h.noSwitch id, hp⟩

theorem PerfParts.performLine {s : State} (h : PerfParts s) (hs : s.perf.state ≠ .stopped) (n : Nat) :
    PerfParts (performLine n s) ∧ (performLine n s).perf.state = .playing := by
  have hplaying : PerfParts (startLossTimer { s with perf := { s.perf with state := .playing } }) :=
    h.withPerf (p := { s.perf with state := .playing, lossTimer := some (s.expiry s.lossTimeout) })
      ⟨by simp, fun _ => rfl⟩ h.cues (by simp) (fun _ => hs)
  unfold Machine.performLine Machine.checkCues
  split
  · exact setPausePoint_playing (hplaying.filterCues _ |>.handsOn (.raise .cue _)) rfl _
  · exact ⟨hplaying, rfl⟩

theorem PerfParts.setDetectors {s : State} (h : PerfParts s) (v : Vector TrackStep 112) : PerfParts (setDetectors v s) := by
  unfold Machine.setDetectors
  generalize (Vector.ofFn fun t => v[t].det) = d
  exact h.congr rfl rfl rfl rfl

theorem alignLine_perf_clock (cells : Vector Byte 128) (s : State) :
    (alignLine cells s).perf = s.perf ∧ (alignLine cells s).clock = s.clock := by
  unfold alignLine
  split
  · split
    · exact ⟨rfl, rfl⟩
    · simp
  · exact ⟨rfl, rfl⟩

theorem PerfParts.alignLine {s : State} (h : PerfParts s) (cells : Vector Byte 128) : PerfParts (alignLine cells s) :=
  h.congr (alignLine_perf_clock cells s).1 (alignLine_perf_clock cells s).2
    (congrArg Settings.route (settings_alignLine cells s)) (congrArg Settings.inForce (settings_alignLine cells s))

theorem PerfParts.cueOnset {s : State} (h : PerfParts s) (m : Nat) : PerfParts (cueOnset m s) := by
  have hcounted : PerfParts { s with reader := { s.reader with rollMarks := min 65535 (s.reader.rollMarks + 1) } } :=
    h.congr rfl rfl rfl rfl
  unfold Machine.cueOnset
  dsimp only
  split
  · next hp =>
    simp only [Bool.and_eq_true, decide_eq_true_eq] at hp
    exact (setPausePoint_playing (hcounted.handsOn (.raise .cue _)) hp.2 _).1
  · exact hcounted

/-- A CUE onset changes of Performance Control the pause point alone. -/
theorem cueOnset_state (m : Nat) (s : State) : (cueOnset m s).perf.state = s.perf.state := by
  unfold cueOnset
  dsimp only
  split
  · unfold setPausePoint; split <;> rfl
  · rfl

theorem foldl_keeps {α : Type} {P : State → Prop} (f : State → α → State) (hf : ∀ s a, P s → P (f s a)) (l : List α)
    {s : State} (hs : P s) : P (l.foldl f s) := by
  induction l generalizing s with
  | nil => exact hs
  | cons a l ih => exact ih (hf s a hs)

theorem PerfParts.handCues {s : State} (h : PerfParts s) (v : Vector TrackStep 112) : PerfParts (handCues v s) := by
  refine foldl_keeps _ (fun s t hs => ?_) _ h
  split
  · exact hs.cueOnset _
  · exact hs

theorem handCues_state (v : Vector TrackStep 112) (s : State) : (handCues v s).perf.state = s.perf.state := by
  refine foldl_keeps (P := fun t => t.perf.state = s.perf.state) _ (fun u t hu => ?_) _ rfl
  split
  · rw [cueOnset_state]; exact hu
  · exact hu

/-- The reader at an END onset: open channels close and every run is cleared (R16, R53). -/
def endClosed (s : State) : State :=
  let dets := s.reader.detectors
  { s with reader := { s.reader with detectors := Vector.ofFn fun t => dets[t].ended s.reader.inForce[t] } }

/-- The closings that an END onset synthesises, handed on (R16). -/
def endHanded (e : Nat) (s : State) : State :=
  let dets := s.reader.detectors
  allTracks.foldl (fun s t =>
    if s.reader.inForce[t].isLevel && dets[t].eff then
      handClosing s.reader.inForce[t] (dets[t].endClosing e) (dets[t].openLine.getD e) s
    else s) (endClosed s)

theorem endOnset_eq (e : Nat) (s : State) : endOnset e s = raise .endOfRoll { endHanded e s with
    perf := { (endHanded e s).perf with state := .draining, lossTimer := none, pausePoint := none } } := by
  unfold endOnset endHanded endClosed
  rfl

theorem HandsOn.endHanded (e : Nat) (s : State) : HandsOn (endClosed s) (endHanded e s) := by
  refine HandsOn.foldl _ (fun s t => ?_) _ (endClosed s)
  split
  · exact .handClosing _ _ _ s
  · exact .refl s

theorem PerfParts.endOnset {s : State} (h : PerfParts s) (hs : s.perf.state ≠ .stopped) (e : Nat) :
    PerfParts (endOnset e s) := by
  have hclosed : PerfParts (endClosed s) := by
    unfold endClosed
    generalize (Vector.ofFn fun t => (s.reader.detectors[t]).ended s.reader.inForce[t]) = d
    exact h.congr rfl rfl rfl rfl
  have hsame : (endClosed s).perf = s.perf := by dsimp only [endClosed]
  have hhanded := hclosed.handsOn (.endHanded e s)
  have hperf : (endHanded e s).perf = s.perf := (HandsOn.endHanded e s).perf.trans hsame
  rw [endOnset_eq]
  refine PerfParts.handsOn ?_ (.raise .endOfRoll _)
  refine hhanded.withPerf ⟨by simp, by simp⟩ hhanded.cues (by simp) fun _ => ?_
  rw [hperf]
  exact hs

theorem PerfParts.readLine {s : State} (h : PerfParts s) (hs : s.perf.state = .playing) (n : Nat)
    (cells : Vector Byte 128) : PerfParts (readLine n cells s) := by
  unfold Machine.readLine
  dsimp only
  generalize trackSteps n cells s = v
  have haligned : PerfParts (Machine.alignLine cells (Machine.setDetectors v s)) := (h.setDetectors v).alignLine cells
  have hperf : (Machine.alignLine cells (Machine.setDetectors v s)).perf = s.perf :=
    (alignLine_perf_clock cells (Machine.setDetectors v s)).1.trans (by dsimp only [Machine.setDetectors])
  generalize Machine.alignLine cells (Machine.setDetectors v s) = w at haligned hperf
  have hshaded : PerfParts (stepRegulators w) := haligned.congr rfl rfl rfl rfl
  have hperf : (stepRegulators w).perf = s.perf := hperf
  generalize stepRegulators w = u at hshaded hperf
  have hon : HandsOn u (handOpenings v (handClosings v u)) := (HandsOn.handClosings v u).trans (.handOpenings v _)
  have hcues := (hshaded.handsOn hon).handCues v
  have hstate : (Machine.handCues v (handOpenings v (handClosings v u))).perf.state = .playing := by
    rw [handCues_state, hon.perf, hperf, hs]
  unfold handEnd
  split
  · exact hcues
  · exact hcues.endOnset (by simp [hstate]) _

/-- Entering PAUSED, but for the state itself: HELD keys are let go, and the pedals lose the roll's claim (R13). -/
def pausedTargets (s : State) : State :=
  let off := sendAll (offKeys (fun _ r => r.phase = .held) s) s
  changePedals PedalRec.paused (mapKeys (KeyRec.paused off) off)

theorem enterPaused_eq (s : State) : enterPaused s = raise .paused { pausedTargets s with
    perf := { (pausedTargets s).perf with state := .paused, lossTimer := none, pausePoint := none } } := rfl

theorem HandsOn.pausedTargets (s : State) : HandsOn s (pausedTargets s) :=
  (HandsOn.sendAll _ s).trans ((HandsOn.mapKeys _ _).trans (.changePedals _ _))

theorem PerfParts.enterPaused {s : State} (h : PerfParts s) (hs : s.perf.state = .playing) :
    PerfParts (enterPaused s) := by
  have htargets := h.handsOn (.pausedTargets s)
  have hperf : (pausedTargets s).perf = s.perf := (HandsOn.pausedTargets s).perf
  rw [enterPaused_eq]
  refine PerfParts.handsOn ?_ (.raise .paused _)
  refine htargets.withPerf ⟨by simp, by simp⟩ htargets.cues (by simp) fun _ => ?_
  rw [hperf, hs]
  simp

theorem PerfParts.acceptLine {s : State} (h : PerfParts s) (hs : s.perf.state ≠ .stopped) (n : Nat)
    (cells : Vector Byte 128) : PerfParts (acceptLine n cells s) := by
  obtain ⟨hstamped, hperf⟩ := h.stampLine n
  obtain ⟨hperformed, hplaying⟩ := hstamped.performLine (by rwa [hperf]) n
  have hread := hperformed.readLine hplaying n cells
  unfold Machine.acceptLine reachPause
  split
  · next hreached =>
    have hstate := (Bool.and_eq_true_iff.1 hreached).1
    exact hread.enterPaused (of_decide_eq_true hstate)
  · exact hread

theorem PerfParts.offerLine {s : State} (h : PerfParts s) (n : Nat) (cells : Vector Byte 128) :
    PerfParts (offerLine n cells s) := by
  unfold Machine.offerLine
  split
  · exact h.handsOn (.count _ s)
  · next hs => exact h.acceptLine (by simp [hs]) n cells
  · next hs =>
    split
    · exact h.handsOn (.count _ s)
    · exact h.acceptLine (by simp [hs]) n cells
  · exact h.handsOn (.count _ s)
  · exact h.handsOn (.count _ s)

/-! ### The cut, and what ends a performance -/

/-- The cut up to the OFFs: the probe is abandoned, then the driven keys are sent OFF (R5). -/
def cutSent (s : State) : State :=
  sendAll (offKeys (fun _ r => r.driven) (abandonProbe .abandoned s)) (abandonProbe .abandoned s)

/-- The cut up to the keys (R5, R132). -/
def cutKeys (s : State) : State := mapKeys (KeyRec.cut (cutSent s)) (emptyScheduler (cutSent s))

/-- The cut but for Performance Control's timers. -/
def cutTargets (s : State) : State := completeSwitch (changePedals PedalRec.cut (cutKeys s))

theorem cut_eq (s : State) : cut s = { cutTargets s with
    perf := { (cutTargets s).perf with lossTimer := none, pausePoint := none } } := rfl

theorem HandsOn.emptyScheduler (s : State) : HandsOn s (emptyScheduler s) := ⟨rfl, rfl, rfl, rfl, rfl, fun _ x => x⟩

theorem HandsOn.cutSent (s : State) : HandsOn s (cutSent s) := (HandsOn.finishProbe _ s).trans (.sendAll _ _)

theorem HandsOn.cutKeys (s : State) : HandsOn s (cutKeys s) :=
  ((HandsOn.cutSent s).trans (.emptyScheduler _)).trans (.mapKeys _ _)

/-- What the cut leaves of Performance Control, the Line Clock and the reader (R5). -/
theorem cut_frame (s : State) : (cut s).perf = { s.perf with lossTimer := none, pausePoint := none } ∧
    (cut s).clock = (completeSwitch s).clock ∧ (cut s).reader = s.reader := by
  have hon : HandsOn s (changePedals PedalRec.cut (cutKeys s)) := (HandsOn.cutKeys s).trans (.changePedals _ _)
  rw [cut_eq]
  unfold cutTargets
  generalize changePedals PedalRec.cut (cutKeys s) = u at hon
  refine ⟨?_, ?_, ?_⟩
  · rw [completeSwitch_perf, hon.perf]
  · have hclock := hon.clock
    simp only [completeSwitch, hclock]
    split <;> simp [hclock]
  · exact (completeSwitch_reader u).trans hon.reader

/-- After the cut no timer runs and no switch is pending; what follows may stop the performance. -/
theorem PerfParts.stopAfterCut {s : State} (h : PerfParts s) (reason : StopReason) :
    PerfParts (stopWith reason (cut s)) := by
  obtain ⟨hperf, hclock, hreader⟩ := cut_frame s
  obtain ⟨hswitched, hnone⟩ := h.completeSwitch
  have hs : PerfParts { Machine.completeSwitch s with
      perf := { s.perf with state := .stopped, stopReason := reason, lossTimer := none, pausePoint := none } } :=
    hswitched.withPerf
      (p := { s.perf with state := .stopped, stopReason := reason, lossTimer := none, pausePoint := none })
      ⟨by simp, by simp⟩ h.cues (fun _ => hnone) (by simp)
  refine hs.congr ?_ ?_ ?_ ?_
  · unfold stopWith; rw [hperf]
  · exact hclock
  · exact congrArg TrackReader.route (hreader.trans (completeSwitch_reader s).symm)
  · exact congrArg TrackReader.inForce (hreader.trans (completeSwitch_reader s).symm)

theorem PerfParts.takeStop {s : State} (h : PerfParts s) : PerfParts (takeStop s) := by
  unfold Machine.takeStop
  split
  · exact h
  · exact (h.stopAfterCut .request).handsOn (.raise _ _)

theorem PerfParts.loseSource {s : State} (h : PerfParts s) : PerfParts (loseSource s) := by
  have hstopped := h.stopAfterCut .lost
  have hfree : PerfParts { stopWith .lost (cut s) with
      clock := { (stopWith .lost (cut s)).clock with base := .free, switch := none } } :=
    hstopped.withClock rfl rfl ⟨rfl, rfl⟩ (fun _ => rfl) (by rintro (e | e) <;> cases e) hstopped.loop
  exact ((hfree.reacquire _).handsOn (.raise .sourceLost _)).handsOn (.raise .stopped _)

theorem PerfParts.resetPerformance {s : State} (h : PerfParts s) : PerfParts (resetPerformance s) := by
  have hstopped := h.stopAfterCut .reset
  unfold Machine.resetPerformance
  dsimp only
  generalize hc : stopWith .reset (cut s) = c at hstopped
  have hcleared : PerfParts { c with
      perf := { c.perf with cues := [], pausePoint := none }, reader := { c.reader with rollMarks := 0 } } :=
    (hstopped.withPerf (p := { c.perf with cues := [], pausePoint := none })
      ⟨hstopped.timers.1, by simp⟩ ⟨.nil, by simp⟩ hstopped.noSwitch id).congr rfl rfl rfl rfl
  have hseen := hcleared.handsOn (.mapKeys (fun _ r => { r with snapshot := r.observed }) _)
  generalize mapKeys _ _ = seen at hseen
  exact hseen.congr rfl rfl rfl rfl

theorem PerfParts.settle {s : State} (h : PerfParts s) : PerfParts (settle s) := by
  have hdrained : PerfParts (drainCheck s) := by
    unfold drainCheck
    split
    · next hc =>
      have hstate : s.perf.state = .draining := by simpa using (Bool.and_eq_true_iff.1 hc).1
      have hon : HandsOn s (changePedals PedalRec.withoutRoll s) := .changePedals _ s
      obtain ⟨hswitched, hnone⟩ := (h.handsOn hon).completeSwitch
      have hp : (Machine.completeSwitch (changePedals PedalRec.withoutRoll s)).perf = s.perf :=
        (completeSwitch_perf _).trans hon.perf
      refine PerfParts.handsOn ?_ (.raise .stopped _)
      refine hswitched.withPerf ⟨?_, ?_⟩ hswitched.cues (fun _ => hnone) (by simp)
      · have := hswitched.timers.1
        rw [hp, hstate] at this
        rw [hp]
        simpa using this
      · have := hswitched.timers.2
        rw [hp, hstate] at this
        rw [hp]
        simpa using this
    · exact h
  unfold Machine.settle
  dsimp only
  unfold raiseIf
  split
  · exact hdrained.handsOn (.raise _ _)
  · exact hdrained

theorem PerfParts.takeStart {s : State} (h : PerfParts s) : PerfParts (takeStart s).1 := by
  unfold Machine.takeStart
  split_ifs with hstate
  · exact h
  · exact h
  · exact h
  · have hstopped : s.perf.state = .stopped := not_not.1 hstate
    refine ⟨⟨?_, by simp [beginPerformance]⟩, h.cues, h.times, by simp [beginPerformance], h.base, h.loop, fun _ => rfl⟩
    have := h.timers.1
    rw [hstopped] at this
    simpa [beginPerformance] using this

theorem PerfParts.takePause {s : State} (h : PerfParts s) : PerfParts (takePause s).1 := by
  unfold Machine.takePause
  split
  · next hs =>
    exact (h.withPerf (p := { s.perf with pausePoint := some s.playTime }) ⟨h.timers.1, fun _ => hs⟩ h.cues h.noSwitch
      id).enterPaused hs
  · exact h

theorem PerfParts.takeResume {s : State} (h : PerfParts s) : PerfParts (takeResume s).1 := by
  unfold Machine.takeResume
  split
  · next hs =>
    -- The loss timer is started last; among the parts it may as well run from the start.
    have hpoint : s.perf.pausePoint = none := by
      by_contra hne
      simpa [hs] using h.timers.2 hne
    let p : PerfControl := { s.perf with state := .playing, lossTimer := some (s.expiry s.lossTimeout) }
    have hplaying : PerfParts { s with perf := p } :=
      h.withPerf (p := p) ⟨by simp [p], fun _ => rfl⟩ h.cues (by simp [p]) (by simp [hs])
    have hclock := hplaying.reacquire .reseed
    have hperf : ∀ (q : PerfControl),
        Machine.reacquire .reseed { s with perf := q } = { Machine.reacquire .reseed s with perf := q } := by
      intro q
      unfold Machine.reacquire Machine.setLoop raiseIf
      dsimp only
      split
      · rfl
      · split <;> rfl
    unfold resumePlaying
    dsimp only
    rw [hperf] at hclock ⊢
    generalize Machine.reacquire .reseed s = c at hclock
    have hon : HandsOn { c with perf := { s.perf with state := .playing } } (runArbiter (joinPending
        (changePedals PedalRec.resumed { c with perf := { s.perf with state := .playing } }))) :=
      ((Plays.changePedals (f := PedalRec.resumed) (fun _ => rfl) _).trans ((Plays.joinPending _).trans (.runArbiter _))).handsOn
    generalize runArbiter _ = u at hon
    have hp : u.perf = { s.perf with state := .playing } := hon.perf
    refine ⟨⟨?_, ?_⟩, ?_, ?_, ?_, ?_, ?_, ?_⟩
    · simp [startLossTimer, hp]
    · simp [startLossTimer, hp]
    · have hcues : (startLossTimer u).perf.cues = s.perf.cues := by
        show u.perf.cues = _
        rw [hp]
      unfold PerfControl.cuesSound
      rw [hcues]
      exact h.cues
    · exact hon.clock ▸ hclock.times
    · simp [startLossTimer, hp]
    · exact hon.clock ▸ hclock.base
    · have hnom : (startLossTimer u).pNom = c.pNom := by
        show u.clock.timing[0] = _
        rw [hon.clock]
        rfl
      rw [hnom]
      exact hon.clock ▸ hclock.loop
    · intro _
      show u.reader.inForce = u.reader.route.map _
      rw [hon.reader]
      exact hclock.inForce (by simp [p])
  · exact h

end Sys2Proof.Machine

namespace Sys2Proof.Machine

/-! ### `performanceSound` is kept by every step -/

theorem HandsOn.writeProfile (r : RawProfile) (p : Profile) (s : State) : HandsOn s (writeProfile r p s) :=
  (((HandsOn.port _ s).trans (.mapKeys _ _)).trans (.drivePedal _ _)).trans (.drivePedal _ _)

theorem HandsOn.takeProfile (r : RawProfile) (s : State) : HandsOn s (takeProfile r s).1 := by
  unfold Machine.takeProfile
  split
  · exact .writeProfile _ _ s
  · exact .refl s

theorem HandsOn.beginProbe (k i h) (s : State) : HandsOn s (beginProbe k i h s) :=
  ((Plays.calib _ s).handsOn.trans (.enqueue _ _)).trans (.strikeReaches _ _ _)

theorem HandsOn.takeProbe (r) (s : State) : HandsOn s (takeProbe r s).1 := by
  unfold Machine.takeProbe
  split
  · exact .refl s
  · split_ifs
    any_goals exact .refl s
    exact .beginProbe _ _ _ s

theorem PerfParts.withReader {s : State} (h : PerfParts s) (r : TrackReader)
    (hforce : s.perf.state ≠ .stopped → r.inForce = r.route.map (·.function)) : PerfParts { s with reader := r } :=
  ⟨h.timers, h.cues, h.times, h.noSwitch, h.base, h.loop, hforce⟩

theorem PerfParts.takeRoute {s : State} (h : PerfParts s) (l : Load RawRoute) : PerfParts (takeRoute l s).1 := by
  unfold Machine.takeRoute
  split
  · exact h
  · next hstate =>
    have hstopped : s.perf.state = .stopped := not_not.1 hstate
    split
    · split
      · dsimp only
        split
        · exact h
        · exact h.withReader _ fun hne => absurd hstopped hne
      · exact h
    · exact h

theorem maskedRoute_functions (on : Bool) (tracks : List Byte) (route : Vector RouteEntry 112) :
    (maskedRoute on tracks route).map (·.function) = route.map (·.function) := by
  refine Vector.ext fun i hi => ?_
  simp only [maskedRoute, Vector.getElem_map, Vector.getElem_ofFn]
  split <;> rfl

theorem PerfParts.takeMask {s : State} (h : PerfParts s) (on : Bool) (tracks : List Byte) :
    PerfParts (takeMask on tracks s).1 := by
  unfold Machine.takeMask
  split
  · refine h.withReader _ fun hne => ?_
    rw [maskedRoute_functions]
    exact h.inForce hne
  · exact h

/-- A load changes neither Performance Control, nor the clock, nor the functions, unless its table is one of them. -/
theorem PerfParts.otherLoads {s : State} (h : PerfParts s) :
    (∀ l, PerfParts (takeDetect l s).1) ∧ (∀ l, PerfParts (takeShading l s).1) ∧ (∀ l, PerfParts (takeCurve l s).1) ∧
      (∀ l, PerfParts (takeVoicing l s).1) ∧ (∀ l, PerfParts (takeCalibration l s).1) ∧
      ∀ l, PerfParts (takeAdaptParam l s).1 := by
  refine ⟨fun l => ?_, fun l => ?_, fun l => ?_, fun l => ?_, fun l => ?_, fun l => ?_⟩
  · unfold takeDetect
    dsimp only
    split_ifs
    any_goals exact h
    exact h.congr rfl rfl rfl rfl
  · unfold takeShading
    dsimp only
    split_ifs
    · exact h.congr rfl rfl rfl rfl
    · exact h
  · unfold takeCurve
    dsimp only
    split_ifs
    · exact h.congr rfl rfl rfl rfl
    · exact h
    · exact h
  · unfold takeVoicing
    dsimp only
    split_ifs
    · exact h.congr rfl rfl rfl rfl
    · exact h
  · unfold takeCalibration
    dsimp only
    split_ifs
    · exact h.congr rfl rfl rfl rfl
    · exact h
    · exact h
  · unfold takeAdaptParam
    dsimp only
    split_ifs
    · exact h.congr rfl rfl rfl rfl
    · exact h

theorem perfParts_reset : PerfParts State.reset where
  timers := by simp [State.reset, PerfControl.timersSound]
  cues := by simp [State.reset, PerfControl.cuesSound]
  times := by simp [State.reset, LineClock.timesSound]
  noSwitch _ := rfl
  base := by simp [State.reset, LineClock.baseSound]
  loop := by constructor <;> simp [State.reset, defaultLoop]
  inForce h := absurd rfl h

theorem perfParts_kept : Kept PerfParts where
  blocks hb h := h.congr hb.perf hb.clock (by rw [hb.reader]) (by rw [hb.reader])
  settle h := h.settle
  tick h := h.tick
  powerOn s := perfParts_reset.congr rfl rfl rfl rfl
  fullReset s := perfParts_reset.congr rfl rfl rfl rfl
  offerLine n cells _ h := h.offerLine n cells
  takeProfile r s _ h := h.handsOn (.takeProfile r s)
  takeRoute l _ h := h.takeRoute l
  takeDetect l _ h := h.otherLoads.1 l
  takeShading l _ h := h.otherLoads.2.1 l
  takeCurve l _ h := h.otherLoads.2.2.1 l
  takeVoicing l _ h := h.otherLoads.2.2.2.1 l
  takeCalibration l _ h := h.otherLoads.2.2.2.2.1 l
  takeTiming l _ h := h.takeTiming l
  takeAdaptParam l _ h := h.otherLoads.2.2.2.2.2 l
  takeMask on tracks _ h := h.takeMask on tracks
  takeStart h := h.takeStart
  takeStop h := h.takeStop
  takePause h := h.takePause
  pausePoint hdue h := h.enterPaused (of_due hdue)
  takeResume h := h.takeResume
  loseSource _ h := h.loseSource
  takeSetCue n _ h := h.takeSetCue n
  filterCues c _ h := h.filterCues c
  clearCues h := h.setCues ⟨.nil, by simp⟩
  takeTimebase b _ h := h.takeTimebase b
  takeLoopOn h := h.takeLoopOn
  takeLoopOff h := h.takeLoopOff
  manual p _ s h := h.handsOn (.changePedal p _ s)
  inhibit p _ s h := h.handsOn (.changePedal p _ s)
  endEngage p s _ h := h.handsOn (Plays.endEngage p s).handsOn
  takeProbe r s h := h.handsOn (.takeProbe r s)
  setAdapt _ _ h := h.congr rfl rfl rfl rfl
  adaptReset k s h := h.handsOn (.upd k _ s)
  thawed k s h := h.handsOn (.upd k _ s)
  adaptResetAll {s} h := h.handsOn (.mapKeys _ s)
  copySnapshots {s} h := h.handsOn (.mapKeys _ s)
  takeEnable b s h := h.handsOn (Plays.takeEnable b s).handsOn
  takeDisable b s h := h.handsOn (Plays.takeDisable b s).handsOn
  resetPerformance h := h.resetPerformance
  dispatchHead {s} h := h.handsOn (.dispatchHead s)
  endPulse k s _ h := h.handsOn (Plays.endPulse k s).handsOn
  holdLimit k s _ h := h.handsOn (Plays.letGo k s).handsOn
  endReturn k s _ h := h.handsOn (Plays.endReturn k s).handsOn
  takeStrikeReport k m s h := h.handsOn (Plays.takeStrikeReport k m s).handsOn
  takeRestReport k s h := h.handsOn (Plays.takeRestReport k s).handsOn
  takeFault b r s h := h.handsOn (Plays.takeFault b r s).handsOn

/-- Settles O57: the parts of `performanceSound` are kept by settling, time and every rule. -/
theorem everyStepKeepsPerformanceSound : Obligations.EveryStepKeepsPerformanceSound := by
  intro s t hs hstep
  rw [performanceSound_iff] at hs ⊢
  exact step_keeps perfParts_kept hs hstep

end Sys2Proof.Machine

namespace Sys2Proof.Machine

/-! ### What leaves the Scheduler, the keys, the pedals and the boards alone -/

/-- The blocks that hold articulations: the Scheduler, the keys, the pedals and the boards. -/
structure SameTargets (s t : State) : Prop where
  sched : t.sched = s.sched
  keys : t.keys = s.keys
  pedals : t.pedals = s.pedals
  port : t.port = s.port

theorem SameTargets.refl (s : State) : SameTargets s s := ⟨rfl, rfl, rfl, rfl⟩

theorem SameTargets.trans {a b c : State} (h : SameTargets a b) (g : SameTargets b c) : SameTargets a c :=
  ⟨g.1.trans h.1, g.2.trans h.2, g.3.trans h.3, g.4.trans h.4⟩

theorem SameTargets.ite {c : Prop} [Decidable c] {s t u : State} (h : SameTargets s t) (g : SameTargets s u) :
    SameTargets s (if c then t else u) := by
  split
  · exact h
  · exact g

theorem SameBlocks.targets {s t : State} (h : SameBlocks s t) : SameTargets s t := ⟨h.sched, h.keys, h.pedals, h.port⟩

theorem SameTargets.withPerf (p) (s : State) : SameTargets s { s with perf := p } := ⟨rfl, rfl, rfl, rfl⟩

theorem SameTargets.withClock (c) (s : State) : SameTargets s { s with clock := c } := ⟨rfl, rfl, rfl, rfl⟩

theorem SameTargets.withReader (r) (s : State) : SameTargets s { s with reader := r } := ⟨rfl, rfl, rfl, rfl⟩

theorem SameTargets.withExpr (e) (s : State) : SameTargets s { s with expr := e } := ⟨rfl, rfl, rfl, rfl⟩

theorem SameTargets.withStrike (c) (s : State) : SameTargets s { s with strike := c } := ⟨rfl, rfl, rfl, rfl⟩

theorem SameTargets.withIntake (i) (s : State) : SameTargets s { s with intake := i } := ⟨rfl, rfl, rfl, rfl⟩

theorem SameTargets.withCalib (c) (s : State) : SameTargets s { s with calib := c } := ⟨rfl, rfl, rfl, rfl⟩

theorem SameTargets.withMgmt (m) (s : State) : SameTargets s { s with mgmt := m } := ⟨rfl, rfl, rfl, rfl⟩

theorem SameTargets.raise (f) (s : State) : SameTargets s (raise f s) := .withMgmt _ s

theorem SameTargets.raiseIf (c f) (s : State) : SameTargets s (raiseIf c f s) := .ite (.raise f s) (.refl s)

theorem SameTargets.count (c) (s : State) : SameTargets s (count c s) := .withMgmt _ s

theorem SameTargets.setCues (c) (s : State) : SameTargets s (setCues c s) := .withPerf _ s

theorem SameTargets.setLoop (l) (s : State) : SameTargets s (setLoop l s) :=
  (SameTargets.withClock _ s).trans (.raiseIf _ _ _)

theorem SameTargets.reacquire (t) (s : State) : SameTargets s (reacquire t s) := .ite (.refl s) (.setLoop _ s)

theorem SameTargets.completeSwitch (s : State) : SameTargets s (completeSwitch s) := by
  unfold Machine.completeSwitch
  split
  · exact .withClock _ s
  · exact .refl s

theorem SameTargets.setPausePoint (t) (s : State) : SameTargets s (setPausePoint t s) := by
  unfold Machine.setPausePoint
  split
  · exact .refl s
  · exact .withPerf _ s

theorem SameTargets.tick (s : State) : SameTargets s (tick s) := .ite (.withClock _ s) (.refl s)

/-! A line, up to the handing on of its transitions, and its CUE onsets. -/

theorem SameTargets.switchAt (t l) (s : State) : SameTargets s (switchAt t l s) := by
  unfold Machine.switchAt
  split
  · exact .setLoop _ s
  · exact (SameTargets.setLoop _ s).trans (.withClock _ _)
  · exact (SameTargets.setLoop _ s).trans (.withClock _ _)

theorem SameTargets.stampLine (n) (s : State) : SameTargets s (stampLine n s) := by
  unfold Machine.stampLine
  split
  · exact (SameTargets.switchAt _ _ s).trans (.withIntake _ _)
  · exact (SameTargets.switchAt _ _ s).trans (.withIntake _ _)
  · exact ((SameTargets.ite (.count _ s) (.refl s)).trans (.switchAt _ _ _)).trans (.withIntake _ _)

theorem SameTargets.performLine (n) (s : State) : SameTargets s (performLine n s) := by
  refine SameTargets.trans (b := startLossTimer { s with perf := { s.perf with state := .playing } }) (.withPerf _ s) ?_
  exact .ite (((SameTargets.withPerf _ _).trans (.raise .cue _)).trans (.setPausePoint _ _)) (.refl _)

theorem SameTargets.setDetectors (v) (s : State) : SameTargets s (setDetectors v s) := .withReader _ s

theorem SameTargets.alignLine (cells) (s : State) : SameTargets s (alignLine cells s) := by
  unfold Machine.alignLine
  split
  · split
    · exact .withReader _ s
    · exact (SameTargets.withReader _ s).trans (.raiseIf _ _ _)
  · exact .refl s

theorem SameTargets.stepRegulators (s : State) : SameTargets s (stepRegulators s) := .withExpr _ s

theorem SameTargets.cueOnset (m) (s : State) : SameTargets s (cueOnset m s) :=
  .ite (((SameTargets.withReader _ s).trans (.raise _ _)).trans (.setPausePoint _ _)) (.withReader _ s)

theorem SameTargets.foldl {α} (f : State → α → State) (h : ∀ s a, SameTargets s (f s a)) (l : List α) (s : State) :
    SameTargets s (l.foldl f s) := by
  induction l generalizing s with
  | nil => exact .refl s
  | cons a l ih => exact (h s a).trans (ih _)

theorem SameTargets.handCues (v) (s : State) : SameTargets s (handCues v s) := by
  refine SameTargets.foldl _ (fun s t => ?_) _ s
  split
  · exact .cueOnset _ s
  · exact .refl s

/-! The requests that write a table or a setting. -/

theorem SameTargets.takeTimebase (b) (s : State) : SameTargets s (takeTimebase b s).1 := by
  unfold Machine.takeTimebase
  split_ifs
  · exact .refl s
  · exact .refl s
  · exact .refl s
  · exact .withClock _ s
  · exact .withClock _ s

theorem SameTargets.takeLoopOn (s : State) : SameTargets s (takeLoopOn s) := .ite (.setLoop _ s) (.refl s)

theorem SameTargets.takeLoopOff (s : State) : SameTargets s (takeLoopOff s).1 := by
  unfold Machine.takeLoopOff
  split_ifs
  · exact .refl s
  · exact .refl s
  · exact .setLoop _ s

theorem SameTargets.takeSetCue (n) (s : State) : SameTargets s (takeSetCue n s).1 := by
  unfold Machine.takeSetCue
  split_ifs
  · exact .refl s
  · exact .refl s
  · exact .setCues _ s

theorem SameTargets.takeRoute (l) (s : State) : SameTargets s (takeRoute l s).1 := by
  unfold Machine.takeRoute
  split
  · exact .refl s
  · split
    · split
      · dsimp only
        split
        · exact .refl s
        · exact .withReader _ s
      · exact .refl s
    · exact .refl s

theorem SameTargets.takeDetect (l) (s : State) : SameTargets s (takeDetect l s).1 := by
  unfold Machine.takeDetect
  dsimp only
  split_ifs
  · exact .refl s
  · exact .withReader _ s
  · exact .refl s
  · exact .refl s

theorem SameTargets.takeShading (l) (s : State) : SameTargets s (takeShading l s).1 := by
  unfold Machine.takeShading
  dsimp only
  split_ifs
  · exact .withExpr _ s
  · exact .refl s

theorem SameTargets.takeCurve (l) (s : State) : SameTargets s (takeCurve l s).1 := by
  unfold Machine.takeCurve
  dsimp only
  split_ifs
  · exact .withExpr _ s
  · exact .refl s
  · exact .refl s

theorem SameTargets.takeVoicing (l) (s : State) : SameTargets s (takeVoicing l s).1 := by
  unfold Machine.takeVoicing
  dsimp only
  split_ifs
  · exact .withExpr _ s
  · exact .refl s

theorem SameTargets.takeCalibration (l) (s : State) : SameTargets s (takeCalibration l s).1 := by
  unfold Machine.takeCalibration
  dsimp only
  split_ifs
  · exact .withStrike _ s
  · exact .refl s
  · exact .refl s

theorem SameTargets.takeTiming (l) (s : State) : SameTargets s (takeTiming l s).1 := by
  unfold Machine.takeTiming
  dsimp only
  split_ifs
  · exact .refl s
  · exact .refl s
  · exact .refl s
  · exact .withClock _ s
  · exact .refl s

theorem SameTargets.takeAdaptParam (l) (s : State) : SameTargets s (takeAdaptParam l s).1 := by
  unfold Machine.takeAdaptParam
  dsimp only
  split_ifs
  · exact .withCalib _ s
  · exact .refl s

theorem SameTargets.takeMask (on tracks) (s : State) : SameTargets s (takeMask on tracks s).1 := by
  unfold Machine.takeMask
  split_ifs
  · exact .withReader _ s
  · exact .refl s

/-! ### The shapes of pausing, draining and resuming -/

theorem pausedKey_owed (s : State) (k : Key) (r : KeyRec) : (r.paused s k).owed = r.owed := by
  unfold KeyRec.paused
  split <;> rfl

theorem Plays.pausedTargets (s : State) : Plays s (pausedTargets s) :=
  (Plays.sendAll _ s).trans ((Plays.mapKeys fun k => pausedKey_owed _ k _).trans (.changePedals (f := PedalRec.paused) (fun _ => rfl) _))

/-- The end of DRAINING lifts the roll's claim on the pedals, and besides that leaves the targets alone (R17, R97). -/
theorem endDraining_eq (s : State) : ∃ u, u = changePedals PedalRec.withoutRoll s ∧ SameTargets u (endDraining s) :=
  ⟨_, rfl, ((SameTargets.completeSwitch _).trans (.withPerf _ _)).trans (.raise _ _)⟩

end Sys2Proof.Machine

namespace Sys2Proof.Machine

/-! ### Counting what one change can alter -/

/-- Where two conditions agree off one element, their counts differ by that element alone. -/
theorem length_filter_update {α : Type} [DecidableEq α] {l : List α} (hl : l.Nodup) {k : α} (hk : k ∈ l) {p q : α → Bool}
    (h : ∀ j, j ≠ k → q j = p j) :
    (l.filter q).length + (p k).toNat = (l.filter p).length + (q k).toNat := by
  have hsplit : ∀ c : α → Bool, (l.filter c).length = (c k).toNat + ((l.erase k).filter c).length := by
    intro c
    rw [((List.perm_cons_erase hk).filter c).length_eq, List.filter_cons]
    cases c k <;> simp [Nat.add_comm]
  have hrest : (l.erase k).filter q = (l.erase k).filter p :=
    List.filter_congr fun j hj => h j (hl.mem_erase_iff.1 hj).1
  rw [hsplit p, hsplit q, hrest]
  omega

theorem allPedals_nodup : allPedals.Nodup := by decide

theorem owedTags_congr {s t : State} (hk : ∀ k, (t.key k).owed = (s.key k).owed)
    (hp : ∀ p, (t.pedal p).owed = (s.pedal p).owed) : t.owedTags = s.owedTags := by
  simp only [State.owedTags, hk, hp]

theorem owedTags_updateKey (k : Key) (f : KeyRec → KeyRec) (s : State) :
    (updateKey k f s).owedTags + (s.key k).owed.isSome.toNat = s.owedTags + (f (s.key k)).owed.isSome.toNat := by
  have hcount := length_filter_update allKeys_nodup (mem_allKeys k)
    (p := fun j => (s.key j).owed.isSome) (q := fun j => ((updateKey k f s).key j).owed.isSome)
    fun j hj => by rw [key_updateKey_ne hj]
  rw [key_updateKey_self] at hcount
  have hpedals : ∀ p, (updateKey k f s).pedal p = s.pedal p := fun _ => rfl
  simp only [State.owedTags, hpedals]
  omega

theorem owedTags_updatePedal (p : Pedal) (f : PedalRec → PedalRec) (s : State) :
    (updatePedal p f s).owedTags + (s.pedal p).owed.isSome.toNat = s.owedTags + (f (s.pedal p)).owed.isSome.toNat := by
  have hcount := length_filter_update allPedals_nodup (mem_allPedals p)
    (p := fun q => (s.pedal q).owed.isSome) (q := fun q => ((updatePedal p f s).pedal q).owed.isSome)
    fun q hq => by rw [pedal_updatePedal_ne hq]
  rw [pedal_updatePedal_self] at hcount
  have hkeys : ∀ k, (updatePedal p f s).key k = s.key k := by cases p <;> exact fun _ => rfl
  simp only [State.owedTags, hkeys]
  omega

theorem owedTags_setOwed (kind : FireKind) (tag : Option Tag) (s : State) :
    (setOwed kind tag s).owedTags + (s.targetTags kind).1.isSome.toNat = s.owedTags + tag.isSome.toNat := by
  cases kind with
  | strike k v => exact owedTags_updateKey k _ s
  | release k => exact owedTags_updateKey k _ s
  | pedalDown p => exact owedTags_updatePedal p _ s
  | pedalUp p => exact owedTags_updatePedal p _ s

theorem setOwed_sched (kind : FireKind) (tag : Option Tag) (s : State) : (setOwed kind tag s).sched = s.sched := by
  cases kind with
  | strike k v => rfl
  | release k => rfl
  | pedalDown p => cases p <;> rfl
  | pedalUp p => cases p <;> rfl

/-! ### `queueSound`, operation by operation -/

theorem queueSound_congr {s t : State} (h : s.queueSound) (hq : t.sched.queue = s.sched.queue)
    (ho : t.sched.owed = s.sched.owed) (hk : ∀ k, (t.key k).owed = (s.key k).owed)
    (hp : ∀ p, (t.pedal p).owed = (s.pedal p).owed) : t.queueSound := by
  unfold State.queueSound
  rw [hq, ho, owedTags_congr hk hp]
  exact h

theorem Plays.queueSound {s t : State} (h : Plays s t) (hs : s.queueSound) : t.queueSound :=
  queueSound_congr hs h.queue h.owed h.keyOwed h.pedalOwed

theorem SameTargets.queueSound {s t : State} (h : SameTargets s t) (hs : s.queueSound) : t.queueSound :=
  queueSound_congr hs (by rw [h.sched]) (by rw [h.sched]) (fun k => by rw [key_congr h.keys])
    fun p => by cases p <;> simp only [State.pedal, h.pedals]

theorem queueSound_dispatchHead {s : State} (hs : s.queueSound) : (dispatchHead s).queueSound := by
  unfold dispatchHead
  split
  · next r rest hqueue =>
    obtain ⟨hsorted, hload, howed⟩ := hs
    rw [hqueue] at hsorted hload
    refine (Plays.handRecord r _).queueSound ⟨hsorted.of_cons, ?_, howed⟩
    rw [List.length_cons] at hload
    dsimp only
    omega
  · exact hs

theorem queueSound_dispatchFirst (n : Nat) {s : State} (hs : s.queueSound) : (dispatchFirst n s).queueSound := by
  induction n generalizing s with
  | zero => exact hs
  | succ n ih => exact ih (queueSound_dispatchHead hs)

theorem mem_insertRecord {r x : FireRecord} {q : List FireRecord} : x ∈ insertRecord r q ↔ x = r ∨ x ∈ q := by
  induction q with
  | nil => simp [insertRecord]
  | cons y ys ih =>
    unfold insertRecord
    split
    · rw [List.mem_cons, ih, List.mem_cons]
      tauto
    · exact List.mem_cons

theorem length_insertRecord (r : FireRecord) (q : List FireRecord) : (insertRecord r q).length = q.length + 1 := by
  induction q with
  | nil => rfl
  | cons x xs ih =>
    unfold insertRecord
    split
    · simp [ih]
    · rfl

/-- A record inserted at its place leaves the queue in order (R100). -/
theorem insertRecord_sorted (r : FireRecord) {q : List FireRecord} (h : q.Pairwise (fun x y => x.fire ≤ y.fire)) :
    (insertRecord r q).Pairwise (fun x y => x.fire ≤ y.fire) := by
  induction q with
  | nil => simp [insertRecord]
  | cons x xs ih =>
    obtain ⟨hx, hxs⟩ := List.pairwise_cons.1 h
    unfold insertRecord
    split
    · next hle =>
      refine List.pairwise_cons.2 ⟨fun y hy => ?_, ih hxs⟩
      rcases mem_insertRecord.1 hy with rfl | hy
      · exact hle
      · exact hx y hy
    · next hgt =>
      refine List.pairwise_cons.2 ⟨fun y hy => ?_, h⟩
      rcases List.mem_cons.1 hy with rfl | hy
      · omega
      · exact le_trans (by omega) (hx y hy)

/-- A record enters a queue that has a place left for it. -/
theorem queueSound_enqueue {r : FireRecord} {s : State} (hs : s.queueSound)
    (hroom : s.sched.queue.length + s.sched.owed < 256) : (enqueue r s).queueSound := by
  obtain ⟨hsorted, -, howed⟩ := hs
  have hinserted : State.queueSound { s with sched := { s.sched with queue := insertRecord r s.sched.queue } } := by
    refine ⟨insertRecord_sorted r hsorted, ?_, howed⟩
    dsimp only
    rw [length_insertRecord]
    omega
  unfold enqueue
  dsimp only
  split
  · exact queueSound_dispatchFirst _ hinserted
  · exact hinserted

theorem Plays.setRefused (kind tag) (s : State) : Plays s (setRefused kind tag s) := by
  cases kind with
  | strike k v => exact .upd k (fun r => { r with refused := tag }) s
  | release k => exact .upd k (fun r => { r with refused := tag }) s
  | pedalDown p => exact .updPedal p (fun r => { r with refused := tag }) s
  | pedalUp p => exact .updPedal p (fun r => { r with refused := tag }) s

/-- An onset that is admitted takes its place and owes one release for one more owed tag at most (R101). -/
theorem queueSound_admitOnset {r : FireRecord} {s : State} (hs : s.queueSound) : (admitOnset r s).queueSound := by
  unfold admitOnset
  split
  · next hroom =>
    obtain ⟨hsorted, -, howed⟩ := hs
    have hload : s.sched.queue.length + s.sched.owed + 2 ≤ 256 := hroom
    have hsched := setOwed_sched r.kind (some r.tag) (setOwedCount (s.sched.owed + 1) s)
    have htags := owedTags_setOwed r.kind (some r.tag) (setOwedCount (s.sched.owed + 1) s)
    have hsame : (setOwedCount (s.sched.owed + 1) s).owedTags = s.owedTags := owedTags_congr (fun _ => rfl) fun _ => rfl
    rw [hsame, Option.isSome_some, Bool.toNat_true] at htags
    have hqueue : (setOwedCount (s.sched.owed + 1) s).sched.queue = s.sched.queue := rfl
    have hcount : (setOwedCount (s.sched.owed + 1) s).sched.owed = s.sched.owed + 1 := rfl
    refine queueSound_enqueue ⟨?_, ?_, ?_⟩ ?_
    · rwa [hsched, hqueue]
    · rw [hsched, hqueue, hcount]
      omega
    · rw [hsched, hcount]
      omega
    · rw [hsched, hqueue, hcount]
      omega
  · exact (Plays.raise _ _).queueSound ((Plays.count _ _).queueSound ((Plays.setRefused _ _ s).queueSound hs))

/-- A release that is owed fills the place its onset reserved: one record more, one owed release and one owed tag fewer
(R102). -/
theorem queueSound_admitRelease {r : FireRecord} {s : State} (hs : s.queueSound) : (admitRelease r s).queueSound := by
  unfold admitRelease
  split
  · next htag =>
    obtain ⟨hsorted, hload, howed⟩ := hs
    have hsched := setOwed_sched r.kind none (setOwedCount (s.sched.owed - 1) s)
    have htags := owedTags_setOwed r.kind none (setOwedCount (s.sched.owed - 1) s)
    have hsame : (setOwedCount (s.sched.owed - 1) s).owedTags = s.owedTags := owedTags_congr (fun _ => rfl) fun _ => rfl
    have htarget : ((setOwedCount (s.sched.owed - 1) s).targetTags r.kind).1 = some r.tag := by
      rw [← htag]; cases r.kind <;> rfl
    rw [hsame, htarget, Option.isSome_some, Option.isSome_none, Bool.toNat_true, Bool.toNat_false] at htags
    have hqueue : (setOwedCount (s.sched.owed - 1) s).sched.queue = s.sched.queue := rfl
    have hcount : (setOwedCount (s.sched.owed - 1) s).sched.owed = s.sched.owed - 1 := rfl
    refine queueSound_enqueue ⟨?_, ?_, ?_⟩ ?_
    · rwa [hsched, hqueue]
    · rw [hsched, hqueue, hcount]
      omega
    · rw [hsched, hcount]
      omega
    · rw [hsched, hqueue, hcount]
      omega
  · split
    · exact (Plays.setRefused _ _ s).queueSound hs
    · exact hs

/-! ### An accepted line -/

theorem queueSound_handClosing (f : RouteFn) (line opening : Nat) {s : State} (hs : s.queueSound) :
    (handClosing f line opening s).queueSound := by
  unfold handClosing
  split
  · exact queueSound_admitRelease hs
  · exact queueSound_admitRelease hs
  all_goals exact hs

theorem SameTargets.noteStrike (k v tag fire) (s : State) : SameTargets s (noteStrike k v tag fire s) := .withStrike _ s

theorem queueSound_handOpening (f : RouteFn) (line : Nat) {s : State} (hs : s.queueSound) :
    (handOpening f line s).queueSound := by
  unfold handOpening
  split
  · exact queueSound_admitOnset ((SameTargets.noteStrike _ _ _ _ s).queueSound hs)
  · exact queueSound_admitOnset ((Plays.updPedal _ _ s).queueSound hs)
  all_goals exact hs

theorem queueSound_handClosings (v : Vector TrackStep 112) {s : State} (hs : s.queueSound) :
    (handClosings v s).queueSound := by
  refine foldl_keeps _ (fun s t hs => ?_) _ hs
  split
  · exact queueSound_handClosing _ _ _ hs
  · exact hs

theorem queueSound_handOpenings (v : Vector TrackStep 112) {s : State} (hs : s.queueSound) :
    (handOpenings v s).queueSound := by
  refine foldl_keeps _ (fun s t hs => ?_) _ hs
  split
  · exact queueSound_handOpening _ _ hs
  · exact hs

theorem queueSound_endOnset (e : Nat) {s : State} (hs : s.queueSound) : (endOnset e s).queueSound := by
  have hclosed : (endClosed s).queueSound := (SameTargets.withReader _ s).queueSound hs
  have hhanded : (endHanded e s).queueSound := by
    refine foldl_keeps _ (fun s t hs => ?_) _ hclosed
    split
    · exact queueSound_handClosing _ _ _ hs
    · exact hs
  rw [endOnset_eq]
  exact ((SameTargets.withPerf _ _).trans (.raise _ _)).queueSound hhanded

theorem queueSound_readLine (n : Nat) (cells : Vector Byte 128) {s : State} (hs : s.queueSound) :
    (readLine n cells s).queueSound := by
  unfold readLine
  dsimp only
  generalize trackSteps n cells s = v
  have hshaded : (stepRegulators (alignLine cells (setDetectors v s))).queueSound :=
    (((SameTargets.setDetectors v s).trans (.alignLine _ _)).trans (.stepRegulators _)).queueSound hs
  have hcues := (SameTargets.handCues v _).queueSound (queueSound_handOpenings v (queueSound_handClosings v hshaded))
  unfold handEnd
  split
  · exact hcues
  · exact queueSound_endOnset _ hcues

theorem queueSound_enterPaused {s : State} (hs : s.queueSound) : (enterPaused s).queueSound := by
  rw [enterPaused_eq]
  exact ((SameTargets.withPerf _ _).trans (.raise _ _)).queueSound ((Plays.pausedTargets s).queueSound hs)

theorem queueSound_offerLine (n : Nat) (cells : Vector Byte 128) {s : State} (hs : s.queueSound) :
    (offerLine n cells s).queueSound := by
  have haccept : (acceptLine n cells s).queueSound := by
    have hread := queueSound_readLine n cells (((SameTargets.stampLine n s).trans (.performLine n _)).queueSound hs)
    unfold acceptLine reachPause
    split
    · exact queueSound_enterPaused hread
    · exact hread
  have hcount : ∀ c, (count c s).queueSound := fun c => (SameTargets.count c s).queueSound hs
  unfold offerLine
  split
  · exact hcount _
  · exact haccept
  · split
    · exact hcount _
    · exact haccept
  · exact hcount _
  · exact hcount _

/-! ### The cut and the resets -/

theorem cutKey_owed (s : State) (k : Key) (r : KeyRec) : (r.cut s k).owed = none := by
  unfold KeyRec.cut
  cases r.phase <;> rfl

/-- The cut empties the Fire Queue and the owed releases, and no owed tag is left (R5). -/
theorem cut_empties (s : State) : (cut s).sched = { queue := [], owed := 0, deferral := [], total := 0 } ∧
    (∀ k, ((cut s).key k).owed = none) ∧ ∀ p, ((cut s).pedal p).owed = none := by
  have htargets : SameTargets (changePedals PedalRec.cut (cutKeys s)) (cut s) := by
    rw [cut_eq]
    exact (SameTargets.completeSwitch _).trans (.withPerf _ _)
  have hpedals : ∀ p, ((changePedals PedalRec.cut (cutKeys s)).pedal p).owed = none := by
    intro p
    rw [changePedals_eq]
    cases p <;> exact follows_owed _ _ _ _
  have hkeys : (cut s).keys = (cutKeys s).keys := by
    rw [htargets.keys, changePedals_eq]
  refine ⟨?_, fun k => ?_, fun p => ?_⟩
  · rw [htargets.sched, changePedals_eq]
    rfl
  · rw [key_congr hkeys]
    unfold cutKeys
    rw [key_mapKeys]
    exact cutKey_owed _ _ _
  · rw [← hpedals p]
    cases p <;> simp only [State.pedal, htargets.pedals]

theorem queueSound_cut (s : State) : (cut s).queueSound := by
  obtain ⟨hsched, hkeys, hpedals⟩ := cut_empties s
  have htags : (cut s).owedTags = 0 := by simp [State.owedTags, hkeys, hpedals]
  unfold State.queueSound
  rw [hsched, htags]
  simp

theorem queueSound_resetPerformance (s : State) : (resetPerformance s).queueSound := by
  have hcleared := ((SameTargets.withPerf { (stopWith .reset (cut s)).perf with cues := [], pausePoint := none } _).trans
    (.withReader { (stopWith .reset (cut s)).reader with rollMarks := 0 } _)).queueSound
      ((SameTargets.withPerf _ _).queueSound (queueSound_cut s) : (stopWith .reset (cut s)).queueSound)
  exact ((SameTargets.withMgmt _ _).trans (.withMgmt _ _)).queueSound
    ((Plays.mapKeys (f := fun _ r => { r with snapshot := r.observed }) fun _ => rfl).queueSound hcleared)

theorem queueSound_settle {s : State} (hs : s.queueSound) : (settle s).queueSound := by
  have hdrained : (drainCheck s).queueSound := by
    unfold drainCheck
    split
    · obtain ⟨u, rfl, htargets⟩ := endDraining_eq s
      exact htargets.queueSound ((Plays.changePedals (f := PedalRec.withoutRoll) (fun _ => rfl) s).queueSound hs)
    · exact hs
  exact (SameTargets.raiseIf _ _ _).queueSound hdrained

theorem queueSound_reset : State.reset.queueSound := by
  have hkeys : ∀ k, (State.reset.key k).owed = none := fun k => by simp [State.key, State.reset, defaultKey]
  have hpedals : ∀ p, (State.reset.pedal p).owed = none := fun p => by cases p <;> rfl
  have htags : State.reset.owedTags = 0 := by simp [State.owedTags, hkeys, hpedals]
  unfold State.queueSound
  rw [htags]
  simp [State.reset]

/-! ### Resuming and probing -/

theorem queueSound_takeResume {s : State} (hs : s.queueSound) : (takeResume s).1.queueSound := by
  unfold takeResume
  split
  · have hclock := ((SameTargets.withPerf { s.perf with state := .playing } s).trans (.reacquire .reseed _)).queueSound hs
    exact (SameTargets.withPerf _ _).queueSound
      (((Plays.changePedals (f := PedalRec.resumed) (fun _ => rfl) _).trans
        ((Plays.joinPending _).trans (.runArbiter _))).queueSound hclock)
  · exact hs

theorem queueSound_takeProbe (r : RawProbe) {s : State} (hs : s.queueSound) : (takeProbe r s).1.queueSound := by
  unfold takeProbe
  split
  · exact hs
  · split
    · exact hs
    · split
      · exact hs
      · split
        · exact hs
        · split
          · exact hs
          · next hroom =>
            have hnoted : ∀ c, State.queueSound { s with calib := c } := fun c => (SameTargets.withCalib c s).queueSound hs
            have hload : s.sched.queue.length + s.sched.owed < 256 := Nat.not_le.1 hroom
            exact (Plays.strikeReaches _ _ _).queueSound (queueSound_enqueue (hnoted _) hload)

theorem queueSound_takeStop {s : State} (hs : s.queueSound) : (takeStop s).queueSound := by
  unfold takeStop
  split
  · exact hs
  · exact ((SameTargets.withPerf _ _).trans (.raise _ _)).queueSound (queueSound_cut s)

theorem queueSound_loseSource (s : State) : (loseSource s).queueSound := by
  have hstopped : (stopWith .lost (cut s)).queueSound := (SameTargets.withPerf _ _).queueSound (queueSound_cut s)
  exact (((SameTargets.withClock _ _).trans (.reacquire _ _)).trans ((SameTargets.raise _ _).trans (.raise _ _))).queueSound
    hstopped

theorem queueSound_takeStart {s : State} (hs : s.queueSound) : (takeStart s).1.queueSound := by
  unfold takeStart
  split
  · exact hs
  · split
    · exact hs
    · split
      · exact hs
      · exact queueSound_congr hs rfl rfl (fun _ => rfl) fun p => by cases p <;> rfl

theorem queueSound_takePause {s : State} (hs : s.queueSound) : (takePause s).1.queueSound := by
  unfold takePause
  split
  · exact queueSound_enterPaused ((SameTargets.withPerf _ s).queueSound hs)
  · exact hs

theorem Plays.writeProfile (r p) (s : State) : Plays s (writeProfile r p s) :=
  (((Plays.port _ s).trans (.mapKeys fun k => by split <;> rfl)).trans (.drivePedal _ _)).trans (.drivePedal _ _)

theorem Plays.takeProfile (r) (s : State) : Plays s (takeProfile r s).1 := by
  unfold Machine.takeProfile
  split
  · exact .writeProfile _ _ s
  · exact .refl s

theorem queueSound_kept : Kept State.queueSound where
  blocks hb h := hb.targets.queueSound h
  settle h := queueSound_settle h
  tick {s} h := (SameTargets.tick s).queueSound h
  powerOn s := queueSound_congr queueSound_reset rfl rfl (fun _ => rfl) fun p => by cases p <;> rfl
  fullReset s := queueSound_congr queueSound_reset rfl rfl (fun _ => rfl) fun p => by cases p <;> rfl
  offerLine n cells _ h := queueSound_offerLine n cells h
  takeProfile r s _ h := (Plays.takeProfile r s).queueSound h
  takeRoute l s h := (SameTargets.takeRoute l s).queueSound h
  takeDetect l s h := (SameTargets.takeDetect l s).queueSound h
  takeShading l s h := (SameTargets.takeShading l s).queueSound h
  takeCurve l s h := (SameTargets.takeCurve l s).queueSound h
  takeVoicing l s h := (SameTargets.takeVoicing l s).queueSound h
  takeCalibration l s h := (SameTargets.takeCalibration l s).queueSound h
  takeTiming l s h := (SameTargets.takeTiming l s).queueSound h
  takeAdaptParam l s h := (SameTargets.takeAdaptParam l s).queueSound h
  takeMask on tracks s h := (SameTargets.takeMask on tracks s).queueSound h
  takeStart h := queueSound_takeStart h
  takeStop h := queueSound_takeStop h
  takePause h := queueSound_takePause h
  pausePoint _ h := queueSound_enterPaused h
  takeResume h := queueSound_takeResume h
  loseSource _ _ := queueSound_loseSource _
  takeSetCue n s h := (SameTargets.takeSetCue n s).queueSound h
  filterCues c s h := (SameTargets.setCues _ s).queueSound h
  clearCues {s} h := (SameTargets.setCues _ s).queueSound h
  takeTimebase b s h := (SameTargets.takeTimebase b s).queueSound h
  takeLoopOn {s} h := (SameTargets.takeLoopOn s).queueSound h
  takeLoopOff {s} h := (SameTargets.takeLoopOff s).queueSound h
  manual p on s h := (Plays.changePedal (f := fun r => { r with manual := on }) rfl).queueSound h
  inhibit p on s h := (Plays.changePedal (f := fun r => { r with inhibit := on }) rfl).queueSound h
  endEngage p s _ h := (Plays.endEngage p s).queueSound h
  takeProbe r _ h := queueSound_takeProbe r h
  setAdapt on s h := (SameTargets.withCalib _ s).queueSound h
  adaptReset k s h := (Plays.upd k KeyRec.adaptReset s).queueSound h
  thawed k s h := (Plays.upd k KeyRec.thawed s).queueSound h
  adaptResetAll h := (Plays.mapKeys (f := fun _ r => r.adaptReset) fun _ => rfl).queueSound h
  copySnapshots h := (Plays.mapKeys (f := fun _ r => { r with snapshot := r.observed }) fun _ => rfl).queueSound h
  takeEnable b s h := (Plays.takeEnable b s).queueSound h
  takeDisable b s h := (Plays.takeDisable b s).queueSound h
  resetPerformance _ := queueSound_resetPerformance _
  dispatchHead h := queueSound_dispatchHead h
  endPulse k s _ h := (Plays.endPulse k s).queueSound h
  holdLimit k s _ h := (Plays.letGo k s).queueSound h
  endReturn k s _ h := (Plays.endReturn k s).queueSound h
  takeStrikeReport k m s h := (Plays.takeStrikeReport k m s).queueSound h
  takeRestReport k s h := (Plays.takeRestReport k s).queueSound h
  takeFault b r s h := (Plays.takeFault b r s).queueSound h

/-- Settles O58: order, load and owed tags are kept by settling, time and every rule. -/
theorem everyStepKeepsTheQueueSound : Obligations.EveryStepKeepsTheQueueSound := by
  intro s t hs hstep
  exact step_keeps queueSound_kept hs hstep

end Sys2Proof.Machine

namespace Sys2Proof.Machine

/-! ### What grows the Management Unit's flags and counters -/

theorem Plays.mgmt {s t : State} (h : Plays s t) : MgmtGrows s t := h.grows

theorem MgmtGrows.withPerf (p) (s : State) : MgmtGrows s { s with perf := p } := .of_eq rfl

theorem MgmtGrows.withClock (c) (s : State) : MgmtGrows s { s with clock := c } := .of_eq rfl

theorem MgmtGrows.withReader (r) (s : State) : MgmtGrows s { s with reader := r } := .of_eq rfl

theorem MgmtGrows.sched (c) (s : State) : MgmtGrows s { s with sched := c } := .of_eq rfl

theorem MgmtGrows.raiseIf (c f) (s : State) : MgmtGrows s (raiseIf c f s) := .ite (.raise f s) (.refl s)

theorem MgmtGrows.count (c) (s : State) : MgmtGrows s (count c s) := .countBy 1 c s

theorem MgmtGrows.setLoop (l) (s : State) : MgmtGrows s (setLoop l s) := (MgmtGrows.withClock _ s).trans (.raiseIf _ _ _)

theorem MgmtGrows.reacquire (t) (s : State) : MgmtGrows s (reacquire t s) := .ite (.refl s) (.setLoop _ s)

theorem MgmtGrows.completeSwitch (s : State) : MgmtGrows s (completeSwitch s) := .of_eq (completeSwitch_mgmt s)

theorem MgmtGrows.setPausePoint (t) (s : State) : MgmtGrows s (setPausePoint t s) := by
  unfold Machine.setPausePoint
  split
  · exact .refl s
  · exact .withPerf _ s

theorem MgmtGrows.foldl {α} (f : State → α → State) (h : ∀ s a, MgmtGrows s (f s a)) (l : List α) (s : State) :
    MgmtGrows s (l.foldl f s) := by
  induction l generalizing s with
  | nil => exact .refl s
  | cons a l ih => exact (h s a).trans (ih _)

/-! The Fire Queue. -/

theorem MgmtGrows.dispatchHead (s : State) : MgmtGrows s (dispatchHead s) := by
  unfold Machine.dispatchHead
  split
  · exact (MgmtGrows.sched _ s).trans (Plays.handRecord _ _).mgmt
  · exact .refl s

theorem MgmtGrows.dispatchFirst (n) (s : State) : MgmtGrows s (dispatchFirst n s) := by
  induction n generalizing s with
  | zero => exact .refl s
  | succ n ih => exact (MgmtGrows.dispatchHead s).trans (ih _)

theorem MgmtGrows.enqueue (r) (s : State) : MgmtGrows s (enqueue r s) :=
  .ite ((MgmtGrows.sched _ s).trans (.dispatchFirst _ _)) (.sched _ s)

theorem setOwed_mgmt (kind : FireKind) (tag : Option Tag) (s : State) : (setOwed kind tag s).mgmt = s.mgmt := by
  cases kind with
  | strike k v => rfl
  | release k => rfl
  | pedalDown p => cases p <;> rfl
  | pedalUp p => cases p <;> rfl

theorem MgmtGrows.admitOnset (r) (s : State) : MgmtGrows s (admitOnset r s) :=
  .ite (((MgmtGrows.sched _ s).trans (.of_eq (setOwed_mgmt _ _ _))).trans (.enqueue _ _))
    (((Plays.setRefused _ _ s).mgmt.trans (.count _ _)).trans (.raise _ _))

theorem MgmtGrows.admitRelease (r) (s : State) : MgmtGrows s (admitRelease r s) :=
  .ite (((MgmtGrows.sched _ s).trans (.of_eq (setOwed_mgmt _ _ _))).trans (.enqueue _ _)) (.ite (Plays.setRefused _ _ s).mgmt (.refl s))

/-! An accepted line. -/

theorem MgmtGrows.switchAt (t l) (s : State) : MgmtGrows s (switchAt t l s) := by
  unfold Machine.switchAt
  split
  · exact .setLoop _ s
  · exact (MgmtGrows.setLoop _ s).trans (.withClock _ _)
  · exact (MgmtGrows.setLoop _ s).trans (.withClock _ _)

theorem MgmtGrows.recordLine (n t) (s : State) : MgmtGrows s (recordLine n t s) := .of_eq rfl

theorem MgmtGrows.stampLine (n) (s : State) : MgmtGrows s (stampLine n s) := by
  unfold Machine.stampLine
  split
  · exact (MgmtGrows.switchAt _ _ s).trans (.recordLine _ _ _)
  · exact (MgmtGrows.switchAt _ _ s).trans (.recordLine _ _ _)
  · exact ((MgmtGrows.ite (.count _ s) (.refl s)).trans (.switchAt _ _ _)).trans (.recordLine _ _ _)

theorem MgmtGrows.performLine (n) (s : State) : MgmtGrows s (performLine n s) := by
  refine MgmtGrows.trans (b := startLossTimer { s with perf := { s.perf with state := .playing } }) (.withPerf _ s) ?_
  exact .ite (((MgmtGrows.withPerf _ _).trans (.raise .cue _)).trans (.setPausePoint _ _)) (.refl _)

theorem MgmtGrows.alignLine (cells) (s : State) : MgmtGrows s (alignLine cells s) := by
  unfold Machine.alignLine
  split
  · split
    · exact .withReader _ s
    · exact (MgmtGrows.withReader _ s).trans (.raiseIf _ _ _)
  · exact .refl s

theorem MgmtGrows.handClosing (f line opening) (s : State) : MgmtGrows s (handClosing f line opening s) := by
  unfold Machine.handClosing
  split
  · exact .admitRelease _ s
  · exact .admitRelease _ s
  all_goals exact .refl s

theorem MgmtGrows.handOpening (f line) (s : State) : MgmtGrows s (handOpening f line s) := by
  unfold Machine.handOpening
  split
  · exact MgmtGrows.trans (b := noteStrike _ _ _ _ s) (.of_eq rfl) (.admitOnset _ _)
  · exact (Plays.updPedal _ _ s).mgmt.trans (.admitOnset _ _)
  all_goals exact .refl s

theorem MgmtGrows.handClosings (v) (s : State) : MgmtGrows s (handClosings v s) := by
  refine MgmtGrows.foldl _ (fun s t => ?_) _ s
  split
  · exact .handClosing _ _ _ s
  · exact .refl s

theorem MgmtGrows.handOpenings (v) (s : State) : MgmtGrows s (handOpenings v s) := by
  refine MgmtGrows.foldl _ (fun s t => ?_) _ s
  split
  · exact .handOpening _ _ s
  · exact .refl s

theorem MgmtGrows.cueOnset (m) (s : State) : MgmtGrows s (cueOnset m s) :=
  .ite (((MgmtGrows.withReader _ s).trans (.raise _ _)).trans (.setPausePoint _ _)) (.withReader _ s)

theorem MgmtGrows.handCues (v) (s : State) : MgmtGrows s (handCues v s) := by
  refine MgmtGrows.foldl _ (fun s t => ?_) _ s
  split
  · exact .cueOnset _ s
  · exact .refl s

theorem MgmtGrows.endOnset (e) (s : State) : MgmtGrows s (endOnset e s) := by
  have hhanded : MgmtGrows s (endHanded e s) := by
    refine MgmtGrows.trans (b := endClosed s) (.withReader _ s) (MgmtGrows.foldl _ (fun s t => ?_) _ _)
    split
    · exact .handClosing _ _ _ s
    · exact .refl s
  rw [endOnset_eq]
  exact (hhanded.trans (.withPerf _ _)).trans (.raise _ _)

theorem MgmtGrows.readLine (n cells) (s : State) : MgmtGrows s (readLine n cells s) := by
  unfold Machine.readLine
  dsimp only
  generalize trackSteps n cells s = v
  have hshaded : MgmtGrows s (stepRegulators (Machine.alignLine cells (setDetectors v s))) :=
    (MgmtGrows.trans (b := setDetectors v s) (.withReader _ s) (.alignLine _ _)).trans (.of_eq rfl)
  have hcues := ((hshaded.trans (.handClosings v _)).trans (.handOpenings v _)).trans (.handCues v _)
  unfold handEnd
  split
  · exact hcues
  · exact hcues.trans (.endOnset _ _)

theorem MgmtGrows.enterPaused (s : State) : MgmtGrows s (enterPaused s) := by
  rw [enterPaused_eq]
  exact ((Plays.pausedTargets s).mgmt.trans (.withPerf _ _)).trans (.raise _ _)

theorem MgmtGrows.offerLine (n cells) (s : State) : MgmtGrows s (offerLine n cells s) := by
  have haccept : MgmtGrows s (acceptLine n cells s) :=
    (((MgmtGrows.stampLine n s).trans (.performLine n _)).trans (.readLine n cells _)).trans
      (.ite (.enterPaused _) (.refl _))
  unfold Machine.offerLine
  split
  · exact .count _ s
  · exact haccept
  · exact .ite (.count _ s) haccept
  · exact .count _ s
  · exact .count _ s

/-! The cut, the stops and the probe. -/

theorem emptyScheduler_mgmt (s : State) : (emptyScheduler s).mgmt = s.mgmt := rfl

theorem pedalsTaken_mgmt (f : PedalRec → PedalRec) (s : State) : (changePedals f s).mgmt = s.mgmt := by
  rw [changePedals_eq]

theorem MgmtGrows.cut (s : State) : MgmtGrows s (cut s) := by
  have hsent : MgmtGrows s (cutSent s) := ((Plays.finishProbe _ s).trans (.sendAll _ _)).mgmt
  have hkeys : MgmtGrows s (cutKeys s) := hsent.trans (.of_eq (by rw [cutKeys, mapKeys_mgmt, emptyScheduler_mgmt]))
  rw [cut_eq]
  exact ((hkeys.trans (.of_eq (pedalsTaken_mgmt _ _))).trans (.completeSwitch _)).trans (.withPerf _ _)

theorem MgmtGrows.settle (s : State) : MgmtGrows s (settle s) := by
  have hdrained : MgmtGrows s (drainCheck s) :=
    .ite ((((MgmtGrows.of_eq (pedalsTaken_mgmt _ _)).trans (.completeSwitch _)).trans (.withPerf _ _)).trans (.raise _ _))
      (.refl s)
  exact hdrained.trans (.raiseIf _ _ _)

theorem MgmtGrows.takeStop (s : State) : MgmtGrows s (takeStop s) :=
  .ite (.refl s) (((MgmtGrows.cut s).trans (.withPerf _ _)).trans (.raise _ _))

theorem MgmtGrows.loseSource (s : State) : MgmtGrows s (loseSource s) :=
  ((((MgmtGrows.cut s).trans (.withPerf _ _)).trans (.withClock _ _)).trans (.reacquire _ _)).trans
    ((MgmtGrows.raise _ _).trans (.raise _ _))

theorem MgmtGrows.takeResume (s : State) : MgmtGrows s (takeResume s).1 := by
  unfold Machine.takeResume
  split
  · exact ((MgmtGrows.withPerf _ s).trans (.reacquire _ _)).trans
      (((Plays.changePedals (f := PedalRec.resumed) (fun _ => rfl) _).trans
        ((Plays.joinPending _).trans (.runArbiter _))).mgmt.trans (.withPerf _ _))
  · exact .refl s

theorem MgmtGrows.takeProbe (r) (s : State) : MgmtGrows s (takeProbe r s).1 := by
  unfold Machine.takeProbe
  split
  · exact .refl s
  · split_ifs
    · exact .refl s
    · exact .refl s
    · exact .refl s
    · exact .refl s
    · exact ((Plays.calib _ s).mgmt.trans (.enqueue _ _)).trans (Plays.strikeReaches _ _ _).mgmt

theorem MgmtGrows.takeStart (s : State) : MgmtGrows s (takeStart s).1 := by
  unfold Machine.takeStart
  split_ifs
  · exact .refl s
  · exact .refl s
  · exact .refl s
  · exact .of_eq rfl

theorem MgmtGrows.takePause (s : State) : MgmtGrows s (takePause s).1 := by
  unfold Machine.takePause
  split
  · exact (MgmtGrows.withPerf _ s).trans (.enterPaused _)
  · exact .refl s

theorem MgmtGrows.takeLoopOn (s : State) : MgmtGrows s (takeLoopOn s) := .ite (.setLoop _ s) (.refl s)

theorem MgmtGrows.takeLoopOff (s : State) : MgmtGrows s (takeLoopOff s).1 := by
  unfold Machine.takeLoopOff
  split_ifs
  · exact .refl s
  · exact .refl s
  · exact .setLoop _ s

/-- The requests that write a table, a cue list or the base leave the Management Unit alone. -/
theorem writes_mgmt (s : State) : (∀ l, (takeRoute l s).1.mgmt = s.mgmt) ∧ (∀ l, (takeDetect l s).1.mgmt = s.mgmt) ∧
    (∀ l, (takeShading l s).1.mgmt = s.mgmt) ∧ (∀ l, (takeCurve l s).1.mgmt = s.mgmt) ∧
    (∀ l, (takeVoicing l s).1.mgmt = s.mgmt) ∧ (∀ l, (takeCalibration l s).1.mgmt = s.mgmt) ∧
    (∀ l, (takeTiming l s).1.mgmt = s.mgmt) ∧ (∀ l, (takeAdaptParam l s).1.mgmt = s.mgmt) ∧
    (∀ on tracks, (takeMask on tracks s).1.mgmt = s.mgmt) ∧ (∀ n, (takeSetCue n s).1.mgmt = s.mgmt) ∧
    ∀ b, (takeTimebase b s).1.mgmt = s.mgmt := by
  refine ⟨fun l => ?_, fun l => ?_, fun l => ?_, fun l => ?_, fun l => ?_, fun l => ?_, fun l => ?_, fun l => ?_,
    fun on tracks => ?_, fun n => ?_, fun b => ?_⟩
  · unfold takeRoute
    split
    · rfl
    · split
      · split
        · dsimp only
          split <;> rfl
        · rfl
      · rfl
  · unfold takeDetect
    dsimp only
    split_ifs <;> rfl
  · unfold takeShading
    dsimp only
    split_ifs <;> rfl
  · unfold takeCurve
    dsimp only
    split_ifs <;> rfl
  · unfold takeVoicing
    dsimp only
    split_ifs <;> rfl
  · unfold takeCalibration
    dsimp only
    split_ifs <;> rfl
  · unfold takeTiming
    dsimp only
    split_ifs <;> rfl
  · unfold takeAdaptParam
    dsimp only
    split_ifs <;> rfl
  · unfold takeMask
    split_ifs <;> rfl
  · unfold takeSetCue
    split_ifs <;> rfl
  · unfold takeTimebase
    split_ifs <;> rfl

/-! ### The flags, the counters and the frames due, rule by rule -/

/-- Bit 15 of the flags is clear and no counter passes 65,535 (R175, R180). -/
structure MgmtOk (s : State) : Prop where
  top : s.mgmt.flags.getLsbD 15 = false
  counters : ∀ c, s.counter c ≤ 65535

theorem MgmtGrows.ok {s t : State} (h : MgmtGrows s t) (hs : MgmtOk s) : MgmtOk t :=
  ⟨h.top.trans hs.top, h.counters hs.counters⟩

theorem MgmtOk.of_cleared {s : State} (hflags : s.mgmt.flags = 0) (hcounters : s.mgmt.counters = Vector.replicate 14 0) :
    MgmtOk s :=
  ⟨by simp [hflags], fun c => by simp [State.counter, hcounters]⟩

/-- How many notices are due. -/
def State.noticesDue (s : State) : Nat := (s.mgmt.outbound.filter (! ·.isResponse)).length

/-- What a rule can do to the Management Unit besides raising and counting: a RESET PERFORMANCE clears both and withdraws
the notice (R176), a CLEAR clears flags, and a READ COUNTERS counters. -/
structure RuleMgmt (s u : State) : Prop where
  ok : MgmtOk s → MgmtOk u
  responses : u.responsesDue = s.responsesDue
  notices : u.noticesDue ≤ s.noticesDue

theorem MgmtGrows.rule {s u : State} (h : MgmtGrows s u) : RuleMgmt s u :=
  ⟨h.ok, by unfold State.responsesDue; rw [h.outbound], by unfold State.noticesDue; rw [h.outbound]⟩

theorem resetPerformance_mgmt (s : State) : (resetPerformance s).mgmt.flags = 0 ∧
    (resetPerformance s).mgmt.counters = Vector.replicate 14 0 ∧
    (resetPerformance s).mgmt.outbound = s.mgmt.outbound.filter OutFrame.isResponse ∧
    (resetPerformance s).mgmt.fullReset = s.mgmt.fullReset := by
  have hout := (MgmtGrows.cut s).outbound
  have hfull := (MgmtGrows.cut s).fullReset
  unfold resetPerformance
  refine ⟨rfl, rfl, ?_, ?_⟩
  · rw [← hout]
    rfl
  · rw [← hfull]
    rfl

theorem RuleMgmt.resetPerformance (s : State) : RuleMgmt s (resetPerformance s) := by
  obtain ⟨hflags, hcounters, hout, -⟩ := resetPerformance_mgmt s
  refine ⟨fun _ => .of_cleared hflags hcounters, ?_, ?_⟩
  · unfold State.responsesDue
    rw [hout, List.filter_filter]
    simp
  · unfold State.noticesDue
    rw [hout, List.filter_filter]
    simp

theorem RuleStep.mgmt {s u : State} (h : RuleStep s u) :
    RuleMgmt s u ∧ u.mgmt.fullReset = s.mgmt.fullReset := by
  have grows : ∀ {u}, MgmtGrows s u →
      RuleMgmt s u ∧ u.mgmt.fullReset = s.mgmt.fullReset :=
    fun h => ⟨h.rule, h.fullReset⟩
  obtain ⟨hroute, hdetect, hshading, hcurve, hvoicing, hcalibration, htiming, hadapt, hmask, hcue, hbase⟩ := writes_mgmt s
  cases h with
  | nothing => exact grows (.refl s)
  | counted c => exact grows (.count c s)
  | failed c => exact grows ((MgmtGrows.count c s).trans (.raise _ _))
  | clearFlags set =>
    refine ⟨⟨fun hs => ⟨?_, hs.counters⟩, rfl, le_rfl⟩, rfl⟩
    simp only [Machine.clearFlags, BitVec.getLsbD_and, hs.top, Bool.false_and]
  | setEnables set => exact ⟨⟨fun hs => ⟨hs.top, hs.counters⟩, rfl, le_rfl⟩, rfl⟩
  | clearCounters =>
    exact ⟨⟨fun hs => ⟨hs.top, fun c => by simp [Machine.clearCounters, State.counter]⟩, rfl, le_rfl⟩, rfl⟩
  | offerLine n cells => exact grows (.offerLine n cells s)
  | takeProfile r h => exact grows (Plays.takeProfile r s).mgmt
  | takeRoute l => exact grows (.of_eq (hroute l))
  | takeDetect l => exact grows (.of_eq (hdetect l))
  | takeShading l => exact grows (.of_eq (hshading l))
  | takeCurve l => exact grows (.of_eq (hcurve l))
  | takeVoicing l => exact grows (.of_eq (hvoicing l))
  | takeCalibration l => exact grows (.of_eq (hcalibration l))
  | takeTiming l => exact grows (.of_eq (htiming l))
  | takeAdaptParam l => exact grows (.of_eq (hadapt l))
  | takeMask on tracks => exact grows (.of_eq (hmask on tracks))
  | takeStart => exact grows (.takeStart s)
  | takeStop => exact grows (.takeStop s)
  | takePause => exact grows (.takePause s)
  | pausePoint h => exact grows (.enterPaused s)
  | takeResume => exact grows (.takeResume s)
  | loseSource h => exact grows (.loseSource s)
  | takeSetCue n => exact grows (.of_eq (hcue n))
  | filterCues c => exact grows (.withPerf _ s)
  | clearCues => exact grows (.withPerf _ s)
  | takeTimebase b => exact grows (.of_eq (hbase b))
  | takeLoopOn => exact grows (.takeLoopOn s)
  | takeLoopOff => exact grows (.takeLoopOff s)
  | manual p on => exact grows (Plays.changePedal (f := fun r => { r with manual := on }) rfl).mgmt
  | inhibit p on => exact grows (Plays.changePedal (f := fun r => { r with inhibit := on }) rfl).mgmt
  | endEngage p h => exact grows (Plays.endEngage p s).mgmt
  | takeProbe r => exact grows (.takeProbe r s)
  | setAdapt on => exact grows (.of_eq rfl)
  | adaptReset k => exact grows (.of_eq rfl)
  | thawed k => exact grows (.of_eq rfl)
  | adaptResetAll => exact grows (.of_eq (mapKeys_mgmt _ s))
  | copySnapshots => exact grows (.of_eq (mapKeys_mgmt _ s))
  | takeEnable b => exact grows (Plays.takeEnable b s).mgmt
  | takeDisable b => exact grows (Plays.takeDisable b s).mgmt
  | resetPerformance => exact ⟨.resetPerformance s, (resetPerformance_mgmt s).2.2.2⟩
  | dispatchHead => exact grows (.dispatchHead s)
  | endPulse k h => exact grows (Plays.endPulse k s).mgmt
  | holdLimit k h => exact grows ((Plays.letGo k s).trans (.raise _ _)).mgmt
  | endReturn k h => exact grows (Plays.endReturn k s).mgmt
  | takeStrikeReport k m => exact grows (Plays.takeStrikeReport k m s).mgmt
  | takeRestReport k => exact grows (Plays.takeRestReport k s).mgmt
  | takeFault b reason => exact grows (Plays.takeFault b reason s).mgmt

end Sys2Proof.Machine

namespace Sys2Proof.Machine

/-! ### `managementSound` is kept by every step -/

theorem endDraining_state (s : State) : (endDraining s).perf.state = .stopped := rfl

theorem drainCheck_not_drained (s : State) :
    (drainCheck s).perf.state = .draining → (drainCheck s).drained = false := by
  unfold drainCheck
  split
  · rw [endDraining_state]
    intro h
    cases h
  · next hc =>
    intro hstate
    simpa [hstate] using hc

/-- Settling leaves a settled state (R17, R163). -/
theorem settle_settled (s : State) : (settle s).settled := by
  have hkeys : ∀ c, (raiseIf c .touch (drainCheck s)).anyMismatch = (drainCheck s).anyMismatch := fun c => by
    cases c <;> rfl
  have hdrained : ∀ c, (raiseIf c .touch (drainCheck s)).drained = (drainCheck s).drained := fun c => by cases c <;> rfl
  refine ⟨fun hstate => ?_, fun hmismatch => ?_⟩
  · unfold settle at hstate ⊢
    dsimp only at hstate ⊢
    rw [raiseIf_perf] at hstate
    rw [hdrained]
    exact drainCheck_not_drained s hstate
  · unfold settle at hmismatch ⊢
    dsimp only at hmismatch ⊢
    rw [hkeys] at hmismatch
    rw [flag_raiseIf, hmismatch]
    simp

/-- Whether a state is settled, the frames due, the resets and the links do not decide. -/
theorem settled_of_blocks {s t : State} (hb : SameBlocks s t) (hflags : t.mgmt.flags = s.mgmt.flags) (hs : s.settled) :
    t.settled :=
  settled_same hs (by rw [hb.perf]) hb.sched hb.keys hflags

/-- What `managementSound` says of the frames due and the RESET FULL. -/
structure FramesOk (s : State) : Prop where
  responses : s.responsesDue ≤ 4
  notices : s.noticesDue ≤ 1
  responding : s.mgmt.fullReset = .responding → 0 < s.responsesDue

theorem managementSound_iff (s : State) : s.managementSound ↔ s.settled ∧ MgmtOk s ∧ FramesOk s :=
  ⟨fun ⟨h1, h2, h3, h4, h5, h6⟩ => ⟨h1, ⟨h4, h5⟩, ⟨h2, h3, h6⟩⟩,
    fun ⟨h1, ⟨h4, h5⟩, ⟨h2, h3, h6⟩⟩ => ⟨h1, h2, h3, h4, h5, h6⟩⟩

theorem responsesDue_pushFrame (f : OutFrame) (s : State) :
    (pushFrame f s).responsesDue = s.responsesDue + f.isResponse.toNat := by
  unfold State.responsesDue pushFrame
  dsimp only
  rw [List.filter_append, List.length_append]
  cases f <;> rfl

theorem noticesDue_pushFrame (f : OutFrame) (s : State) :
    (pushFrame f s).noticesDue = s.noticesDue + (!f.isResponse).toNat := by
  unfold State.noticesDue pushFrame
  dsimp only
  rw [List.filter_append, List.length_append]
  cases f <;> rfl

theorem noticesDue_of_not_mem {s : State} (h : s.mgmt.outbound.contains .notice = false) : s.noticesDue = 0 := by
  have hmem : OutFrame.notice ∉ s.mgmt.outbound := by simpa using h
  refine List.length_eq_zero_iff.2 (List.filter_eq_nil_iff.2 fun f hf => ?_)
  cases f with
  | response id r data => simp [OutFrame.isResponse]
  | notice => exact absurd hf hmem

theorem FramesOk.congr {s t : State} (h : FramesOk s) (hout : t.mgmt.outbound = s.mgmt.outbound)
    (hfull : t.mgmt.fullReset = s.mgmt.fullReset) : FramesOk t := by
  obtain ⟨h1, h2, h3⟩ := h
  refine ⟨?_, ?_, ?_⟩
  · unfold State.responsesDue
    rw [hout]
    exact h1
  · unfold State.noticesDue
    rw [hout]
    exact h2
  · unfold State.responsesDue
    rw [hout, hfull]
    exact h3

/-- A notice becomes due only when none is (R166). -/
theorem FramesOk.dueNotice {s : State} (h : FramesOk s) (cause : Bool) : FramesOk (dueNotice cause s) := by
  unfold Machine.dueNotice
  split
  · next hcause =>
    have hnone := noticesDue_of_not_mem (s := s) (by simpa using (Bool.and_eq_true_iff.1 hcause).2)
    have hresponses : (pushFrame .notice s).responsesDue = s.responsesDue := responsesDue_pushFrame .notice s
    refine ⟨hresponses ▸ h.responses, ?_, hresponses ▸ h.responding⟩
    rw [noticesDue_pushFrame, hnone]
    exact le_rfl
  · exact h

/-- A response becomes due only where fewer than four are (R165, R166). -/
theorem FramesOk.respond {s : State} (hroom : s.responsesDue < 4) (hnotices : s.noticesDue ≤ 1) (id : Byte) (r : Result)
    (data : List Byte) (cause : Bool) : FramesOk (respond id r data cause s) := by
  refine FramesOk.dueNotice ⟨?_, ?_, fun _ => ?_⟩ cause
  · rw [responsesDue_pushFrame]
    exact hroom
  · rw [noticesDue_pushFrame]
    exact hnotices
  · rw [responsesDue_pushFrame]
    exact Nat.succ_pos _

theorem mgmtOk_congr {s t : State} (h : MgmtOk s) (hflags : t.mgmt.flags = s.mgmt.flags)
    (hcounters : t.mgmt.counters = s.mgmt.counters) : MgmtOk t :=
  ⟨by rw [hflags]; exact h.top, fun c => by unfold State.counter; rw [hcounters]; exact h.counters c⟩

theorem MgmtOk.dueNotice {s : State} (h : MgmtOk s) (cause : Bool) : MgmtOk (dueNotice cause s) :=
  mgmtOk_congr h (dueNotice_flags cause s) (dueNotice_counters cause s)

theorem MgmtOk.respond {s : State} (h : MgmtOk s) (id : Byte) (r : Result) (data : List Byte) (cause : Bool) :
    MgmtOk (respond id r data cause s) :=
  MgmtOk.dueNotice (s := pushFrame (.response id r data) s) (mgmtOk_congr h rfl rfl) cause

section
variable {s u : State}

/-- The answer of a rule: its response becomes due, and then the notice may (R163, R166). -/
theorem managementSound_answered (hs : s.managementSound) (id : Byte) (r : Result) (data : List Byte) (cause : Bool)
    (hroom : s.responsesDue < 4) (h : RuleMgmt s u) : (respond id r data cause (settle u)).managementSound := by
  rw [managementSound_iff] at hs ⊢
  obtain ⟨-, hok, hframes⟩ := hs
  have hgrows := MgmtGrows.settle u
  have hresponses : (settle u).responsesDue = s.responsesDue :=
    (congrArg (fun o => (o.filter OutFrame.isResponse).length) hgrows.outbound).trans h.responses
  have hnotices : (settle u).noticesDue ≤ 1 :=
    (congrArg (fun o : List OutFrame => (o.filter (! ·.isResponse)).length) hgrows.outbound).le.trans
      (h.notices.trans hframes.notices)
  refine ⟨settled_of_blocks (.respond _ _ _ _ _) ?_ (settle_settled u), (hgrows.ok (h.ok hok)).respond _ _ _ _,
    .respond (hresponses ▸ hroom) hnotices _ _ _ _⟩
  exact dueNotice_flags _ _

/-- The end of an event of the part's own. -/
theorem managementSound_finishEvent (hs : s.managementSound) (h : RuleStep s u) : (finishEvent s u).managementSound := by
  rw [managementSound_iff] at hs ⊢
  obtain ⟨-, hok, hframes⟩ := hs
  obtain ⟨hrule, hfull⟩ := h.mgmt
  have hgrows := MgmtGrows.settle u
  have hsettled : FramesOk (settle u) := by
    have hresponses : (settle u).responsesDue = s.responsesDue :=
      (congrArg (fun o => (o.filter OutFrame.isResponse).length) hgrows.outbound).trans hrule.responses
    refine ⟨hresponses.trans_le hframes.responses, ?_, fun hresponding => hresponses ▸ hframes.responding ?_⟩
    · exact (congrArg (fun o : List OutFrame => (o.filter (! ·.isResponse)).length) hgrows.outbound).le.trans
        (hrule.notices.trans hframes.notices)
    · rw [← hfull, ← hgrows.fullReset, hresponding]
  exact ⟨settled_of_blocks (.dueNotice _ _) (dueNotice_flags _ _) (settle_settled u),
    (hgrows.ok (hrule.ok hok)).dueNotice _, hsettled.dueNotice _⟩

/-- The frames due, less the head of them. -/
theorem framesDue_sendFrame (f : SentFrame) {d : OutFrame} {rest : List OutFrame} (h : s.mgmt.outbound = d :: rest) :
    s.responsesDue = (sendFrame f rest s).responsesDue + d.isResponse.toNat ∧
      s.noticesDue = (sendFrame f rest s).noticesDue + (!d.isResponse).toNat := by
  unfold State.responsesDue State.noticesDue sendFrame
  rw [h]
  cases d <;> exact ⟨rfl, rfl⟩

/-- A response leaves; with the last of them, that of a RESET FULL has left (R177). -/
theorem FramesOk.response (hs : FramesOk s) {id : Byte} {r : Result} {data : List Byte} {rest : List OutFrame}
    (h : s.mgmt.outbound = .response id r data :: rest) :
    FramesOk (Machine.noteFullReset (sendFrame (.response id r data) rest s)) := by
  obtain ⟨hresponses, hnotices⟩ := framesDue_sendFrame (.response id r data) h
  have hfewer : (sendFrame (.response id r data) rest s).responsesDue ≤ 4 :=
    (Nat.le_add_right _ _).trans (hresponses.symm.le.trans hs.responses)
  have hsame : (sendFrame (.response id r data) rest s).noticesDue ≤ 1 := hnotices.symm.le.trans hs.notices
  unfold Machine.noteFullReset
  split
  · exact ⟨hfewer, hsame, nofun⟩
  · next hleft => exact ⟨hfewer, hsame, fun hresponding => Nat.pos_of_ne_zero fun hnone => hleft ⟨hresponding, hnone⟩⟩

theorem FramesOk.notice (hs : FramesOk s) {rest : List OutFrame} (h : s.mgmt.outbound = .notice :: rest) :
    FramesOk (sendFrame (noticeNow s) rest s) := by
  obtain ⟨hresponses, hnotices⟩ := framesDue_sendFrame (noticeNow s) h
  have hsame : (sendFrame (noticeNow s) rest s).responsesDue = s.responsesDue := hresponses.symm
  exact ⟨hsame ▸ hs.responses, (Nat.le_add_right _ _).trans (hnotices.symm.le.trans hs.notices),
    fun hresponding => hsame ▸ hs.responding hresponding⟩

theorem noteFullReset_flags (s : State) : (noteFullReset s).mgmt.flags = s.mgmt.flags := by
  unfold Machine.noteFullReset
  split <;> rfl

theorem noteFullReset_counters (s : State) : (noteFullReset s).mgmt.counters = s.mgmt.counters := by
  unfold Machine.noteFullReset
  split <;> rfl

theorem reset_observed (k : Key) : (State.reset.key k).observed = (State.reset.key k).snapshot := by
  simp [State.key, State.reset, defaultKey]

/-- A state whose flags and counters are clear, with the performance stopped and all keys at their power-on values. -/
theorem managementSound_reset {t : State} (hperf : t.perf = State.reset.perf) (hkeys : t.keys = State.reset.keys)
    (hflags : t.mgmt.flags = 0) (hcounters : t.mgmt.counters = Vector.replicate 14 0) (hframes : FramesOk t) :
    t.managementSound := by
  rw [managementSound_iff]
  refine ⟨⟨fun hstate => ?_, fun hmismatch => ?_⟩, .of_cleared hflags hcounters, hframes⟩
  · rw [hperf] at hstate
    cases hstate
  · obtain ⟨k, -, hk⟩ := (anyMismatch_iff t).1 hmismatch
    have hkey : t.key k = State.reset.key k := congrArg (fun v : Vector KeyRec 88 => v[k.val]) hkeys
    rw [hkey] at hk
    exact absurd (reset_observed k) hk

theorem managementSound_same {t : State} (hs : s.managementSound) (h : SamePart s t) : t.managementSound := by
  rw [managementSound_iff] at hs ⊢
  obtain ⟨hsettled, hok, hframes⟩ := hs
  have hmgmt := h.mgmt
  refine ⟨settled_of_blocks h.blocks ?_ hsettled, mgmtOk_congr hok ?_ ?_, hframes.congr ?_ ?_⟩ <;> rw [hmgmt]

/-- The responses due stay due over a RESET FULL; its notice is withdrawn (R177). -/
theorem framesOk_fullReset (s : State) (hs : FramesOk s) : FramesOk (fullReset s) := by
  have hout : (fullReset s).mgmt.outbound = s.mgmt.outbound.filter OutFrame.isResponse := rfl
  refine ⟨?_, ?_, nofun⟩
  · unfold State.responsesDue
    rw [hout, List.filter_filter]
    simpa using (show (s.mgmt.outbound.filter OutFrame.isResponse).length ≤ 4 from hs.responses)
  · unfold State.noticesDue
    rw [hout, List.filter_filter]
    simp

theorem managementSound_exec {t : State} (hs : s.managementSound) (h : ExecOutcome s t) : t.managementSound := by
  cases h with
  | powerOn => exact managementSound_reset rfl rfl rfl rfl ⟨Nat.zero_le _, Nat.zero_le _, nofun⟩
  | fullReset _ =>
    rw [managementSound_iff] at hs
    exact managementSound_reset rfl rfl rfl rfl (framesOk_fullReset s hs.2.2)
  | nothing => exact hs
  | waits c => exact managementSound_same hs ⟨.withMgmt _ s, rfl⟩
  | event h => exact managementSound_finishEvent hs h
  | answered id r data cause hroom h => exact managementSound_answered hs id r data cause hroom h.mgmt.1
  | fullAnswered id cause hroom =>
    exact managementSound_answered hs id .ok [] cause hroom ⟨fun h => mgmtOk_congr h rfl rfl, rfl, le_rfl⟩
  | response hout =>
    rw [managementSound_iff] at hs ⊢
    obtain ⟨hsettled, hok, hframes⟩ := hs
    exact ⟨settled_of_blocks ((SameBlocks.sendFrame _ _ s).trans (.noteFullReset _)) (noteFullReset_flags _) hsettled,
      mgmtOk_congr hok (noteFullReset_flags _) (noteFullReset_counters _), hframes.response hout⟩
  | notice hout =>
    rw [managementSound_iff] at hs ⊢
    obtain ⟨hsettled, hok, hframes⟩ := hs
    exact ⟨settled_of_blocks (.sendFrame _ _ s) rfl hsettled, mgmtOk_congr hok rfl rfl, hframes.notice hout⟩
end

/-- Time changes no frame and no flag. -/
theorem managementSound_tick {s : State} (hs : s.managementSound) : (tick s).managementSound := by
  unfold tick
  split
  · rw [managementSound_iff] at hs ⊢
    obtain ⟨hsettled, hok, hframes⟩ := hs
    exact ⟨settled_same hsettled rfl rfl rfl rfl, mgmtOk_congr hok rfl rfl, hframes.congr rfl rfl⟩
  · exact hs

/-- Settles O56: an event settles at its end, and what becomes due, and what leaves, are counted. -/
theorem everyStepKeepsManagementSound : Obligations.EveryStepKeepsManagementSound := by
  unfold Obligations.EveryStepKeepsManagementSound
  intro s t hs h
  cases step_outcome h with
  | command hbefore h hafter =>
    exact managementSound_same (managementSound_exec (managementSound_same hs hbefore) h) hafter
  | tick hbefore => exact managementSound_tick (managementSound_same hs hbefore)

end Sys2Proof.Machine

namespace Sys2Proof.Machine

/-! ### Power-on -/

theorem key_reset (k : Key) : State.reset.key k = defaultKey := by simp [State.key, State.reset]

theorem board_reset (b : Board) :
    State.reset.board b =
      { present := false, service := .disabled .noProfile, faultReason := none, inFlight := 0, params := none } := by
  simp [State.board, State.reset, defaultBoard]

theorem striking_reset (c : Key → Bool) : State.reset.striking c = 0 := by
  simp [State.striking, key_reset, defaultKey]

theorem keysAgree_reset : State.reset.keysAgree := by
  refine ⟨fun k => ?_, fun k => ?_, .nil, fun k => ?_, nofun, fun b => ?_, ?_, Nat.zero_le _, fun k => ?_, fun _ => nofun⟩
  · simp only [key_reset, defaultKey, true_iff]
    rfl
  · simp [key_reset, defaultKey]
  · rw [key_reset]
    exact ⟨nofun, nofun⟩
  · rw [board_reset, striking_reset]
    exact ⟨rfl, Nat.zero_le _⟩
  · rw [striking_reset]
    rfl
  · simp [key_reset, defaultKey]

theorem pedalsAgree_reset : State.reset.pedalsAgree := by
  intro p
  cases p <;> exact ⟨rfl, nofun, by simp [State.pedal, State.reset, defaultPedal]⟩

/-- Settles O60: at power-on nothing is due, driven or queued. -/
theorem whatStepsKeepHoldsAtReset : Obligations.WhatStepsKeepHoldsAtReset :=
  ⟨managementSound_reset rfl rfl rfl rfl ⟨Nat.zero_le _, Nat.zero_le _, nofun⟩,
    (performanceSound_iff _).2 perfParts_reset, queueSound_reset, keysAgree_reset, pedalsAgree_reset⟩

/-! ### Steps -/

/-- Settles O1: the queue of commands goes before the part's own events. -/
theorem stepRunsTheFrontCommand : Obligations.StepRunsTheFrontCommand := by
  unfold Obligations.StepRunsTheFrontCommand
  intro c rest s hpending
  unfold step
  rw [hpending]

theorem timedEvent_next (due : Bool) (act : State → State) (s : State) : ∃ t, timedEvent due act s = .next t := by
  cases due <;> exact ⟨_, rfl⟩

theorem exec_next (c : Instr) (s : State) : ∃ t, exec c s = .next t := by
  cases c
  case clear id f =>
    show ∃ t, execClear id f s = .next t
    cases f <;> exact ⟨_, rfl⟩
  case notices id f =>
    show ∃ t, execNotices id f s = .next t
    cases f <;> exact ⟨_, rfl⟩
  case responseSend =>
    show ∃ t, execResponseSend s = .next t
    unfold execResponseSend
    split <;> exact ⟨_, rfl⟩
  case noticeSend =>
    show ∃ t, execNoticeSend s = .next t
    unfold execNoticeSend
    split <;> exact ⟨_, rfl⟩
  case pausePointReached => exact timedEvent_next _ _ s
  case lossTimeout => exact timedEvent_next _ _ s
  case dispatch => exact timedEvent_next _ _ s
  case pulseEnd k => exact timedEvent_next _ _ s
  case holdLimit k => exact timedEvent_next _ (fun s => raise .holdExpired (letGo k s)) s
  case returnTimer k => exact timedEvent_next _ _ s
  case engageEnd p => exact timedEvent_next _ _ s
  all_goals exact ⟨_, rfl⟩

theorem takeWaiting_next (s : State) : ∃ t, takeWaiting s = .next t := by
  unfold takeWaiting
  split
  · next c rest _ =>
    obtain ⟨t, ht⟩ := exec_next c { s with mgmt := { s.mgmt with waiting := [] } }
    rw [ht]
    exact ⟨_, rfl⟩
  · exact ⟨_, rfl⟩

theorem takeRollFrame_next (s : State) : ∃ t, takeRollFrame s = .next t := by
  unfold takeRollFrame
  split
  · exact exec_next _ _
  · split
    · exact exec_next _ _
    · exact exec_next _ _
  · exact ⟨_, rfl⟩

theorem takeActionFrame_next (s : State) : ∃ t, takeActionFrame s = .next t := by
  unfold takeActionFrame
  split
  · exact exec_next _ _
  · exact ⟨_, rfl⟩

theorem takeIdle_next (e : IdleEvent) (s : State) : ∃ t, takeIdle e s = .next t := by
  cases e with
  | own c => exact exec_next c s
  | waiting => exact takeWaiting_next s
  | rollFrame => exact takeRollFrame_next s
  | actionFrame => exact takeActionFrame_next s
  | tick => exact ⟨_, rfl⟩

theorem step_next (s : State) : ∃ t, step s = .next t := by
  unfold step
  split
  · exact exec_next _ _
  · unfold idle
    split
    · exact ⟨_, rfl⟩
    · exact takeIdle_next _ s
    · exact takeIdle_next _ _

/-- Settles O3. -/
theorem everyStepAnswersNext : Obligations.EveryStepAnswersNext := ⟨exec_next, step_next⟩

/-! ### The power-on values -/

/-- Settles O16: the tables of power-on are evaluated entry by entry. -/
theorem powerOnGivesEveryBlockItsValues : Obligations.PowerOnGivesEveryBlockItsValues := by
  unfold Obligations.PowerOnGivesEveryBlockItsValues
  intro s
  refine ⟨powerOn s, rfl, rfl, rfl, rfl, by rfl, fun i => ?_, fun k => ?_, fun k => ⟨?_, ?_⟩, fun u => ⟨?_, ?_, ?_⟩⟩
  all_goals simp [powerOn, State.reset, defaultCurve, defaultVoicing, defaultCalRec, closedDetector]

/-- Settles O17: each value is read off the reset state. -/
theorem resetStateHoldsTheChaptersValues : Obligations.ResetStateHoldsTheChaptersValues := by
  unfold Obligations.ResetStateHoldsTheChaptersValues
  refine ⟨rfl, rfl, rfl, rfl, rfl, rfl, rfl, by rfl, rfl, by rfl, rfl, rfl, rfl, rfl, fun u => ?_, fun u => ⟨?_, ?_⟩, by rfl,
    fun i => ?_, fun k => ?_, fun k => ?_, fun h => ?_, fun k => ?_, rfl, key_reset, fun p => ?_, board_reset, rfl, rfl, by rfl,
    rfl, rfl, rfl, fun f => ?_, rfl, fun c => ?_, rfl, rfl, rfl, rfl, rfl, rfl⟩
  case refine_7 => cases h <;> rfl
  case refine_9 => cases p <;> rfl
  case refine_10 => simp [State.flag, State.reset]
  case refine_11 => simp [State.counter, State.reset]
  all_goals simp [State.reset, defaultCurve, defaultVoicing, defaultCalRec, closedDetector]

end Sys2Proof.Machine

namespace Sys2Proof.Machine

/-! ### The part's own events -/

theorem idleEvents_ne_nil (s : State) : idleEvents s ≠ [] := by
  intro hnil
  by_cases hready : s.mgmt.fullReset = .ready
  · unfold idleEvents at hnil
    rw [if_pos hready] at hnil
    cases hnil
  · have hmem := mem_idleEvents hready
    simp only [hnil, List.not_mem_nil, false_iff, not_or] at hmem
    have hnone : ∀ c, s.timedDue c = false := fun c => by
      have h := (hmem (.own c)).1
      simpa using fun hdue => h ⟨c, rfl, .inl hdue⟩
    exact (hmem .tick).2.2.2.2 ⟨rfl, hnone⟩

/-- On an empty queue one of the things that can happen does; the choice of one among several is counted. -/
theorem step_idle {s : State} (hpending : s.pending = []) :
    ∃ e ∈ idleEvents s, step s = takeIdle e s ∨ step s = takeIdle e (countIdle s) := by
  have hstep : step s = idle s := by
    unfold step
    rw [hpending]
  rw [hstep]
  unfold idle
  split
  · next hnil => exact absurd hnil (idleEvents_ne_nil s)
  · next e hone => exact ⟨e, by simp [hone], .inl rfl⟩
  · have hpos := List.length_pos_iff.2 (idleEvents_ne_nil s)
    refine ⟨_, ?_, .inr rfl⟩
    rw [List.getD_eq_getElem _ _ (Nat.mod_lt _ hpos)]
    exact List.getElem_mem _

theorem step_idle_one {s : State} (hpending : s.pending = []) {e : IdleEvent} (hone : idleEvents s = [e]) :
    step s = takeIdle e s := by
  unfold step idle
  rw [hpending, hone]

theorem any_le_iff (o : Option Nat) (n : Nat) : o.any (· ≤ n) = true ↔ ∃ t, o = some t ∧ t ≤ n := by
  cases o <;> simp

theorem pauseReached_iff (s : State) : s.pauseReached = true ↔
    s.perf.state = .playing ∧ ∃ t, s.perf.pausePoint = some t ∧ t ≤ s.playTime := by
  simp [State.pauseReached, any_le_iff]

theorem headDue_iff (s : State) : s.headDue = true ↔
    s.perf.state ≠ .paused ∧ ∃ t, s.sched.queue.head?.map (·.fire) = some t ∧ t ≤ s.playTime := by
  unfold State.headDue
  cases s.sched.queue <;> simp

theorem complete_iff (a : Assembled) : Assembled.complete a = true ↔ ∃ c afterFrame afterSync, a = .frame c afterFrame afterSync := by
  cases a <;> simp [Assembled.complete]

theorem waitingReady_iff (s : State) : s.waitingReady = true ↔ s.mgmt.fullReset = .none ∧
    ∃ c rest, s.mgmt.waiting = c :: rest ∧ (isRequest c = true → s.responsesDue < 4) := by
  unfold State.waitingReady
  split
  · next c rest hwaiting =>
    simp only [hwaiting, Bool.and_eq_true, decide_eq_true_eq, List.cons.injEq]
    cases hask : isRequest c <;> simp [hask]
  · next hwaiting => simp [hwaiting]

theorem tick_counts {s : State} (h : s.clock.actionTime < maxTime) : tick s = { s with clock := { s.clock with
    actionTime := s.clock.actionTime + 1
    pausedTotal := if s.perf.state = .paused then s.clock.pausedTotal + 1 else s.clock.pausedTotal } } := if_pos h

theorem tick_stands {s : State} (h : maxTime ≤ s.clock.actionTime) : tick s = s := if_neg (Nat.not_lt.2 h)

theorem tick_playTime_paused {s : State} (h : s.perf.state = .paused) : (tick s).playTime = s.playTime := by
  rcases Nat.lt_or_ge s.clock.actionTime maxTime with hlt | hge
  · rw [tick_counts hlt, if_pos h]
    exact Nat.add_sub_add_right _ _ _
  · rw [tick_stands hge]

theorem tick_playTime_runs {s : State} (h : s.perf.state ≠ .paused) (hlt : s.clock.actionTime < maxTime)
    (hle : s.clock.pausedTotal ≤ s.clock.actionTime) : (tick s).playTime = s.playTime + 1 := by
  rw [tick_counts hlt, if_neg h]
  exact Nat.sub_add_comm hle

/-- Settles O2: what can happen is the list of `idleEvents`, read off event by event. -/
theorem emptyQueueTakesAnEventOfItsOwn : Obligations.EmptyQueueTakesAnEventOfItsOwn := by
  unfold Obligations.EmptyQueueTakesAnEventOfItsOwn
  refine ⟨fun s hpending => ⟨fun e => step_idle_one hpending, step_idle hpending⟩, ?_, ?_⟩
  · intro s passed now due leaves
    have hdue : ∀ c, s.timedDue c = true ↔ due c := fun c => by
      cases c
      case pausePointReached => exact pauseReached_iff s
      case dispatch => exact headDue_iff s
      case lossTimeout => simp [State.timedDue, reached_iff, due, passed, now]
      case pulseEnd k => simp [State.timedDue, reached_iff, due, passed, now]
      case holdLimit k => simp [State.timedDue, reached_iff, due, passed, now]
      case returnTimer k => simp [State.timedDue, reached_iff, due, passed, now]
      case engageEnd p => simp [State.timedDue, reached_iff, due, passed, now]
      all_goals exact ⟨nofun, nofun⟩
    have hleaves : ∀ c, c ∈ sendEvents s ↔ leaves c := fun c => by
      rw [mem_sendEvents]
      cases c <;> simp [leaves]
    refine ⟨fun hready => if_pos hready, fun hready => ?_⟩
    have hmem := mem_idleEvents hready
    refine ⟨fun c => ?_, ?_, ?_, ?_, ?_⟩
    · simp [hmem, hdue, hleaves]
    · simp [hmem, waitingReady_iff]
    · simp [hmem, complete_iff]
    · simp [hmem, complete_iff]
    · simp [hmem, ← hdue]
  · intro s moved
    refine ⟨fun c => rfl, rfl, rfl, rfl, fun hlt hpaused => ?_, fun hlt hruns => ?_, tick_stands, tick_playTime_paused,
      tick_playTime_runs⟩
    · rw [tick_counts hlt, if_pos hpaused]
    · rw [tick_counts hlt, if_neg hruns]
      rfl

end Sys2Proof.Machine

namespace Sys2Proof.Machine

/-! ### Malformed requests -/

section
variable {s : State} (hready : s.ready) (hsettled : s.settled)
include hready hsettled

theorem request_invalid (c : Instr) (id : Byte) :
    request c id (fun s => (s, .invalid)) s = .next (s.nowDue [.response id .invalid []]) :=
  request_responds hready c id rfl hsettled rfl

theorem readRequest_invalid (c : Instr) (id : Byte) (effect : State → State) :
    readRequest c id effect (fun _ => none) s = .next (s.nowDue [.response id .invalid []]) := by
  rw [readRequest_none hready c id effect _ rfl, settle_of_settled hsettled, replied_same rfl]
end

/-- A row of the request table with a form: only the bad form is malformed. -/
theorem exec_of_malformed {α : Type} {row : Form α → Instr} {f : Form α} {id id' : Byte} {s : State} {out : Byte → Out}
    (hgood : ∀ a, malformedId (row (.good a)) = none) (hbad : malformedId (row .bad) = some id)
    (hexec : exec (row .bad) s = out id) (h : malformedId (row f) = some id') : exec (row f) s = out id' := by
  cases f with
  | good a => rw [hgood a] at h; cases h
  | bad => rw [hbad] at h; cases h; exact hexec

/-- Settles O4: the form is checked before anything else, and a READ finds no data in a bad form. -/
theorem malformedRequestIsInvalid : Obligations.MalformedRequestIsInvalid := by
  unfold Obligations.MalformedRequestIsInvalid
  intro c id s hready hsettled h
  let out (id : Byte) : Out := .next (s.nowDue [.response id .invalid []])
  show exec c s = out id
  cases c
  case readStatus => exact exec_of_malformed (fun _ => rfl) rfl (readRequest_invalid hready hsettled _ _ _) h
  case readKey => exact exec_of_malformed (fun _ => rfl) rfl (readRequest_invalid hready hsettled _ _ _) h
  case readKeys => exact exec_of_malformed (fun _ => rfl) rfl (readRequest_invalid hready hsettled _ _ _) h
  case readRegulators => exact exec_of_malformed (fun _ => rfl) rfl (readRequest_invalid hready hsettled _ _ _) h
  case readPedals => exact exec_of_malformed (fun _ => rfl) rfl (readRequest_invalid hready hsettled _ _ _) h
  case readBoards => exact exec_of_malformed (fun _ => rfl) rfl (readRequest_invalid hready hsettled _ _ _) h
  case readLoop => exact exec_of_malformed (fun _ => rfl) rfl (readRequest_invalid hready hsettled _ _ _) h
  case readQueue => exact exec_of_malformed (fun _ => rfl) rfl (readRequest_invalid hready hsettled _ _ _) h
  case readCounters => exact exec_of_malformed (fun _ => rfl) rfl (readRequest_invalid hready hsettled _ _ _) h
  case readTable => exact exec_of_malformed (fun _ => rfl) rfl (readRequest_invalid hready hsettled _ _ _) h
  case readProbe => exact exec_of_malformed (fun _ => rfl) rfl (readRequest_invalid hready hsettled _ _ _) h
  any_goals exact exec_of_malformed (fun _ => rfl) rfl (request_invalid hready hsettled _ _) h
  all_goals nomatch h

end Sys2Proof.Machine

namespace Sys2Proof.Machine

/-! ### The bytes of requests (R180, R181) -/

theorem parseFlagSet_eq (l : List Byte) :
    parseFlagSet l = match l with | [a, b] => if a.getLsbD 7 then .bad else .good (a ++ b) | _ => .bad := by
  match l with
  | [] => rfl
  | [_] => rfl
  | [a, b] =>
    have htop : (be2 a b).getLsbD 15 = a.getLsbD 7 := (BitVec.getLsbD_append (x := a) (y := b)).trans rfl
    unfold parseFlagSet
    dsimp only
    rw [htop]
    rfl
  | _ :: _ :: _ :: _ => rfl

section
variable (id a : Byte) (ops : List Byte)

theorem parseMask_other (h : 1 < a.toNat) : parseMask id (a :: ops) = .maskSet id .bad := by
  unfold parseMask
  dsimp only
  split
  · omega
  · omega
  · rfl

theorem parseClearCue_other (h : 1 < a.toNat) : parseClearCue id (a :: ops) = .clearCue id .bad := by
  unfold parseClearCue
  dsimp only
  split
  · omega
  · omega
  · rfl

theorem parseTimebase_other (h : 1 < a.toNat) : parseTimebase id (a :: ops) = .timebaseFree id .bad := by
  unfold parseTimebase
  dsimp only
  split
  · omega
  · omega
  · rfl

theorem parseLoop_other (h : 1 < a.toNat) : parseLoop id (a :: ops) = .loopOn id .bad := by
  unfold parseLoop
  dsimp only
  split
  · omega
  · omega
  · rfl

theorem parseReset_other (h : 1 < a.toNat) : parseReset id (a :: ops) = .resetPerformance id .bad := by
  unfold parseReset
  dsimp only
  split
  · omega
  · omega
  · rfl

theorem parseAdapt_other (h : 4 < a.toNat) : parseAdapt id (a :: ops) = .adaptOn id .bad := by
  unfold parseAdapt
  dsimp only
  split
  case h_6 => rfl
  all_goals omega

theorem parseRead_other (h : 10 < a.toNat) : parseRead id (a :: ops) = .readStatus id .bad := by
  unfold parseRead
  dsimp only
  split
  case h_12 => rfl
  all_goals omega

theorem parsePedalRequest_other (p : Byte) (h : 3 < a.toNat) : parsePedalRequest id [p, a] = .pedalAssert id .bad := by
  unfold parsePedalRequest
  dsimp only
  split
  case h_5 => rfl
  all_goals omega

theorem parseBoard_other (b : Byte) (h : 1 < a.toNat) : parseBoard id [b, a] = .boardEnable id .bad := by
  unfold parseBoard
  dsimp only
  split
  case h_3 => rfl
  all_goals omega

theorem parsePedalRequest_length {ops : List Byte} (h : ops.length ≠ 2) :
    parsePedalRequest id ops = .pedalAssert id .bad := by
  unfold parsePedalRequest
  split
  · exact absurd rfl h
  · rfl

theorem parseBoard_length {ops : List Byte} (h : ops.length ≠ 2) : parseBoard id ops = .boardEnable id .bad := by
  unfold parseBoard
  split
  · exact absurd rfl h
  · rfl

theorem parseQueueAt_length {ops : List Byte} (h : ops.length ≠ 2) : parseQueueAt ops = .bad := by
  unfold parseQueueAt
  split
  · exact absurd rfl h
  · rfl

theorem parseProbe_length {ops : List Byte} (h : ops.length ≠ 5) : parseProbe ops = .bad := by
  unfold parseProbe
  split
  · exact absurd rfl h
  · rfl

theorem parseTableAt_length {ops : List Byte} (h : ops.length ≠ 4) : parseTableAt ops = .bad := by
  unfold parseTableAt
  split
  · exact absurd rfl h
  · rfl

theorem parseClearOption_other {ops : List Byte} (h0 : ops ≠ [0]) (h1 : ops ≠ [1]) : parseClearOption ops = .bad := by
  unfold parseClearOption
  split
  · exact absurd rfl h0
  · exact absurd rfl h1
  · rfl

/-- A LOAD of no listed table, or with fewer than three bytes behind its table, has a bad form (R168, R181). -/
theorem parseLoad_other (h : a = 0 ∨ 8 < a.toNat ∨ ops.length < 3) : parseLoad id (a :: ops) = .loadRoute id .bad := by
  unfold parseLoad
  split
  · next table f1 f0 count bytes heq =>
    obtain ⟨rfl, rfl⟩ := List.cons.inj heq
    have htable : a.toNat = 0 ∨ 8 < a.toNat := by
      rcases h with rfl | h | h
      · exact .inl rfl
      · exact .inr h
      · simp only [List.length_cons] at h
        omega
    dsimp only
    split
    case h_9 => rfl
    all_goals omega
  · rfl

theorem parseKind_other {kind : Byte} (h : kind = 0 ∨ 0x13 < kind.toNat) :
    parseKind id kind ops = .unknownRequest id kind := by
  have hkind : kind.toNat = 0 ∨ 19 < kind.toNat := by
    rcases h with rfl | h
    · exact .inl rfl
    · exact .inr h
  unfold parseKind
  split
  case h_20 => rfl
  all_goals omega
end

/-! ### The entries of a LOAD (R181) -/

theorem be2_halves (w : BitVec 16) : be2 (w.extractLsb' 8 8) (w.extractLsb' 0 8) = w := by
  apply BitVec.eq_of_toNat_eq
  simp only [be2_toNat, BitVec.extractLsb'_toNat, Nat.shiftRight_eq_div_pow]
  omega

theorem be4_toNat (a b c d : Byte) :
    (be4 a b c d).toNat = ((a.toNat * 256 + b.toNat) * 256 + c.toNat) * 256 + d.toNat := by
  have happend : ∀ {n : Nat} (x : BitVec n) (y : Byte), (x ++ y).toNat = x.toNat * 256 + y.toNat := fun x y => by
    rw [BitVec.toNat_append, ← Nat.shiftLeft_add_eq_or_of_lt y.isLt, Nat.shiftLeft_eq]
  unfold be4
  rw [happend, happend, happend]

theorem be4_bytes (e : BitVec 32) :
    be4 ((e.extractLsb' 16 16).extractLsb' 8 8) ((e.extractLsb' 16 16).extractLsb' 0 8)
      ((e.extractLsb' 0 16).extractLsb' 8 8) ((e.extractLsb' 0 16).extractLsb' 0 8) = e := by
  apply BitVec.eq_of_toNat_eq
  simp only [be4_toNat, BitVec.extractLsb'_toNat, Nat.shiftRight_eq_div_pow]
  omega

/-- A LOAD whose entries take `size` bytes each: the entries are read back, and any other number of bytes is a bad form. -/
theorem parseKind_load {α : Type} {size : Nat} {bytesOf : α → List Byte} {entry : List Byte → α}
    {row : Form (Load α) → Instr} {id table f1 f0 count : Byte} (hsize : 0 < size)
    (hlength : ∀ a, (bytesOf a).length = size) (hentry : ∀ a, entry (bytesOf a) = a)
    (hrow : ∀ bytes, parseKind id 0x02 (table :: f1 :: f0 :: count :: bytes) =
      row (parseEntries size entry (be2 f1 f0) count bytes)) :
    (∀ entries : List α, entries.length = count.toNat →
      parseKind id 0x02 (table :: f1 :: f0 :: count :: entries.flatMap bytesOf) = row (.good ⟨f1 ++ f0, entries⟩)) ∧
    ∀ bytes : List Byte, bytes.length ≠ count.toNat * size →
      parseKind id 0x02 (table :: f1 :: f0 :: count :: bytes) = row .bad := by
  refine ⟨fun entries h => ?_, fun bytes h => ?_⟩
  · rw [hrow, parseEntries_flatMap hsize hlength hentry _ h]
    rfl
  · rw [hrow, parseEntries_bad entry _ h]

end Sys2Proof.Machine

namespace Sys2Proof.Machine

/-! ### The request table (R180) -/

section
variable (id : Byte) (ops : List Byte)

/-- A request is malformed when it is its row's bad form. -/
def parsesBad (kind : Byte) (l : List Byte) : Prop := malformedId (parseKind id kind l) = some id

theorem parsesBad_empty : ∀ kind ∈ ([0x02, 0x03, 0x09, 0x0A, 0x0B, 0x0C, 0x0E, 0x0F, 0x10, 0x13] : List Byte),
    parsesBad id kind [] := by
  simp only [List.forall_mem_cons]
  exact ⟨rfl, rfl, rfl, rfl, rfl, rfl, rfl, rfl, rfl, rfl, nofun⟩

theorem parsesBad_option (a : Byte) :
    (∀ kind ∈ ([0x03, 0x09, 0x0A, 0x0B, 0x13] : List Byte), 1 < a.toNat → parsesBad id kind (a :: ops)) ∧
      (4 < a.toNat → parsesBad id 0x0E (a :: ops)) ∧ (10 < a.toNat → parsesBad id 0x10 (a :: ops)) ∧
      (a = 0 ∨ 8 < a.toNat ∨ ops.length < 3 → parsesBad id 0x02 (a :: ops)) ∧
      (∀ p, 3 < a.toNat → parsesBad id 0x0C [p, a]) ∧ ∀ b, 1 < a.toNat → parsesBad id 0x0F [b, a] := by
  have of : ∀ {c d : Instr}, c = d → malformedId d = some id → malformedId c = some id := fun h hd => h ▸ hd
  simp only [List.forall_mem_cons]
  exact ⟨⟨fun h => of (parseMask_other id a ops h) rfl, fun h => of (parseClearCue_other id a ops h) rfl,
      fun h => of (parseTimebase_other id a ops h) rfl, fun h => of (parseLoop_other id a ops h) rfl,
      fun h => of (parseReset_other id a ops h) rfl, nofun⟩,
    fun h => of (parseAdapt_other id a ops h) rfl, fun h => of (parseRead_other id a ops h) rfl,
    fun h => of (parseLoad_other id a ops h) rfl, fun p h => of (parsePedalRequest_other id a p h) rfl,
    fun b h => of (parseBoard_other id a b h) rfl⟩

theorem parsesBad_length :
    (ops.length ≠ 2 → parsesBad id 0x0C ops ∧ parsesBad id 0x0F ops ∧ parsesBad id 0x10 (7 :: ops)) ∧
      (ops.length ≠ 5 → parsesBad id 0x0D ops) ∧ (ops ≠ [0] → ops ≠ [1] → parsesBad id 0x10 (8 :: ops)) ∧
      (ops.length ≠ 4 → parsesBad id 0x10 (9 :: ops)) ∧ ∀ table f1 f0, parsesBad id 0x10 [9, table, f1, f0, 0] := by
  have of : ∀ {c d : Instr}, c = d → malformedId d = some id → malformedId c = some id := fun h hd => h ▸ hd
  exact ⟨fun h => ⟨of (parsePedalRequest_length id h) rfl, of (parseBoard_length id h) rfl,
      of (congrArg (Instr.readQueue id) (parseQueueAt_length h)) rfl⟩,
    fun h => of (congrArg (Instr.probe id) (parseProbe_length h)) rfl,
    fun h0 h1 => of (congrArg (Instr.readCounters id) (parseClearOption_other h0 h1)) rfl,
    fun h => of (congrArg (Instr.readTable id) (parseTableAt_length h)) rfl, fun _ _ _ => rfl⟩
end

/-! ### The bytes of a PROFILE (R181) -/

/-- The form of the 215 bytes of a PROFILE. -/
theorem parseProfile_good {bs : List Byte} (h : bs.length = 215 ∧ (List.range 88).all (keyMapOk bs) ∧ pedalMapOk bs 176 ∧
    pedalMapOk bs 178 ∧ (List.range 4).all (boardEntryOk bs) ∧ instrumentOk bs) :
    parseProfile bs = .good {
      keys := Vector.ofFn (parseKeyMap bs), sustain := parsePedalMap bs 176, soft := parsePedalMap bs 178
      boards := Vector.ofFn (parseBoardEntry bs), mTot := statedByte (byteAt bs 208) 0 (byteAt bs 209)
      holdLimit := statedByte (byteAt bs 208) 1 (byteAt bs 210)
      returnTimeout := statedWord (byteAt bs 208) 2 (wordAt bs 211)
      returnTime := statedWord (byteAt bs 208) 3 (wordAt bs 213) } := if_pos h

theorem all_range_iff {n : Nat} {f : Nat → Bool} : (List.range n).all f = true ↔ ∀ i : Fin n, f i.val = true := by
  rw [List.all_eq_true]
  exact ⟨fun h i => h i.val (List.mem_range.2 i.isLt), fun h i hi => h ⟨i, List.mem_range.1 hi⟩⟩

theorem keyMapOk_iff (bs : List Byte) (k : Nat) : keyMapOk bs k = true ↔
    (byteAt bs (2 * k + 1)).getLsbD 5 = false ∧ (byteAt bs (2 * k + 1)).getLsbD 6 = false := by
  simp [keyMapOk]

/-- Settles O5: each row of the request table is read off `parseKind`; the entries of a LOAD are chunks of its bytes. -/
theorem unknownKindIsAnsweredUnknown : Obligations.UnknownKindIsAnsweredUnknown := by
  unfold Obligations.UnknownKindIsAnsweredUnknown
  refine ⟨fun id kind s hready hsettled => request_responds hready _ _ rfl hsettled rfl, ?_, ?_, ?_⟩
  · intro id ops none zeros one line set tracks pedal made bad
    have hnone : ∀ l, parseNone l = none l := parseNone_eq
    have hset : ∀ l, parseFlagSet l = set l := parseFlagSet_eq
    have hpedal : ∀ p, parsePedal p = pedal p := parsePedal_eq
    refine ⟨fun kind => parseKind_other id ops, ?_, ?_, parsesBad_empty id, parsesBad_option id ops,
      (parsesBad_length id ops).1, (parsesBad_length id ops).2.1, (parsesBad_length id ops).2.2⟩
    · exact ⟨rfl, rfl, congrArg _ (hnone ops), congrArg _ (hnone ops),
        congrArg _ (hnone ops), congrArg _ (hnone ops), rfl, rfl,
        congrArg _ (parseZeroLine_eq ops), congrArg _ (hnone ops), congrArg _ (hnone ops), congrArg _ (hnone ops),
        congrArg _ (hnone ops),
        fun p => ⟨congrArg _ (hpedal p), congrArg _ (hpedal p), congrArg _ (hpedal p), congrArg _ (hpedal p)⟩,
        fun _ _ _ _ _ => rfl, congrArg _ (parseZeroByte_eq ops), congrArg _ (parseZeroByte_eq ops),
        rfl, congrArg _ (parseZeroByte_eq ops), rfl, fun _ => ⟨rfl, rfl⟩,
        congrArg _ (hset ops), congrArg _ (hset ops), congrArg _ (hnone ops), congrArg _ (hnone ops)⟩
    · refine ⟨congrArg _ (hnone ops), rfl, congrArg _ (hnone ops), congrArg _ (hnone ops),
        congrArg _ (hnone ops), congrArg _ (hnone ops), congrArg _ (hnone ops), congrArg _ (hnone ops),
        fun _ _ => rfl, rfl, rfl, fun table f1 f0 count hcount => ?_⟩
      exact congrArg (Instr.readTable id) (if_neg hcount)
  · intro id loads b2 point
    have hb2 : ∀ w, wordAt (b2 w) 0 = w := be2_halves
    refine ⟨fun f1 f0 count => ?_, fun f1 f0 count => ?_, fun f1 f0 count => ?_, fun f1 f0 count => ?_,
      fun f1 f0 count => ?_, fun f1 f0 count => ?_, fun f1 f0 count => ?_, fun f1 f0 count => ?_⟩
    · exact parseKind_load (by decide) (fun _ => rfl) (fun _ => rfl) fun _ => rfl
    · exact parseKind_load (by decide) (fun _ => rfl) (fun _ => rfl) fun _ => rfl
    · exact parseKind_load (by decide) (fun _ => rfl) hb2 fun _ => rfl
    · exact parseKind_load (by decide) (fun _ => rfl) hb2 fun _ => rfl
    · exact parseKind_load (by decide) (fun _ => rfl) hb2 fun _ => rfl
    · refine parseKind_load (by decide) (fun _ => rfl) (fun e => ?_) fun _ => rfl
      have hpoint : ∀ p : RawPoint, (⟨wordAt (b2 p.intensity) 0, wordAt (b2 p.width) 0, wordAt (b2 p.lead) 0⟩ : RawPoint) = p :=
        fun p => by rw [hb2, hb2, hb2]
      exact congr (congr (congr (congr (congrArg RawCal.mk (hpoint e.p0)) (hpoint e.p1)) (hpoint e.p2)) (hpoint e.p3))
        (hb2 e.rl)
    · exact parseKind_load (by decide) (fun _ => rfl) be4_bytes fun _ => rfl
    · exact parseKind_load (by decide) (fun _ => rfl) hb2 fun _ => rfl
  · intro id ops byte word stated setOk sound
    have hboard : ∀ b : Board, boardEntryOk ops b.val = true ↔ (byte (180 + 7 * b.val)).toNat < 2 ∧
        setOk (byte (181 + 7 * b.val)) (byte (182 + 7 * b.val)).toNat (byte (183 + 7 * b.val)).toNat
          (word (184 + 7 * b.val)).toNat (byte (186 + 7 * b.val)).toNat := fun b => by
      have hat : ∀ i, 180 + 7 * b.val + i = 180 + i + 7 * b.val := fun i => by omega
      unfold boardEntryOk
      simp only [Bool.and_eq_true, decide_eq_true_eq, statedOk_iff, hat]
      exact Iff.rfl
    have hform : (ops.length = 215 ∧ (List.range 88).all (keyMapOk ops) ∧ pedalMapOk ops 176 ∧ pedalMapOk ops 178 ∧
        (List.range 4).all (boardEntryOk ops) ∧ instrumentOk ops) ↔ sound := by
      simp only [all_range_iff, keyMapOk_iff, hboard, instrumentOk, statedOk_iff, pedalMapOk, decide_eq_true_eq]
      exact Iff.rfl
    refine ⟨fun h => ?_, fun h => congrArg (Instr.profile id) (if_neg (mt hform.1 h))⟩
    refine (congrArg (Instr.profile id) (parseProfile_good (hform.2 h))).trans ?_
    have hentry : ∀ b : Board, parseBoardEntry ops b =
        ⟨(byte (180 + 7 * b.val)).getLsbD 0, stated (byte (181 + 7 * b.val)) 0 (byte (182 + 7 * b.val)),
          stated (byte (181 + 7 * b.val)) 1 (byte (183 + 7 * b.val)),
          stated (byte (181 + 7 * b.val)) 2 (word (184 + 7 * b.val)),
          stated (byte (181 + 7 * b.val)) 3 (byte (186 + 7 * b.val))⟩ := fun b => by
      have hat : ∀ i, 180 + 7 * b.val + i = 180 + i + 7 * b.val := fun i => by omega
      unfold parseBoardEntry
      simp only [hat]
      rfl
    rw [funext hentry]
    rfl

end Sys2Proof.Machine

namespace Sys2Proof.Machine

/-! ### Received bytes (R165, R183) -/

/-- Behind a SYNC stands the frame. -/
theorem assembleRoll_sync {noise : List Byte} (h : 0xA5 ∉ noise) (rest : List Byte) :
    assembleRoll (noise ++ 0xA5 :: rest) = assembleRollBody rest := by
  rw [assembleRoll_skip _ h]
  exact if_pos rfl

theorem assembleRollBody_short {rest : List Byte} (h : rest.length < 3) : assembleRollBody rest = .more := by
  unfold assembleRollBody
  split
  · simp only [List.length_cons] at h
    omega
  · rfl

section
variable {kind l1 l0 : Byte}

theorem assembleRollBody_long (h : 1024 < l1.toNat * 256 + l0.toNat) (tail : List Byte) :
    assembleRollBody (kind :: l1 :: l0 :: tail) =
      .frame (.rollLinkFrameError .length) (kind :: l1 :: l0 :: tail) (kind :: l1 :: l0 :: tail) :=
  if_pos (by rwa [be2_toNat])

theorem assembleRollBody_more (hlen : l1.toNat * 256 + l0.toNat ≤ 1024) {tail : List Byte}
    (h : tail.length < l1.toNat * 256 + l0.toNat + 2) : assembleRollBody (kind :: l1 :: l0 :: tail) = .more := by
  rw [← be2_toNat] at hlen h
  exact (if_neg (Nat.not_lt.2 hlen)).trans (if_pos h)

theorem assembleRollBody_enough (hlen : l1.toNat * 256 + l0.toNat ≤ 1024) {tail : List Byte}
    (h : l1.toNat * 256 + l0.toNat + 2 ≤ tail.length) : assembleRollBody (kind :: l1 :: l0 :: tail) =
      .frame (checkRollFrame kind (tail.take (be2 l1 l0).toNat) ((tail.drop (be2 l1 l0).toNat).take 2)
          (kind :: l1 :: l0 :: tail.take (be2 l1 l0).toNat))
        (tail.drop ((be2 l1 l0).toNat + 2)) (kind :: l1 :: l0 :: tail) := by
  rw [← be2_toNat] at hlen h
  have hbody : (kind :: l1 :: l0 :: tail).take (3 + (be2 l1 l0).toNat) =
      kind :: l1 :: l0 :: tail.take (be2 l1 l0).toNat := by
    rw [Nat.add_comm]
    rfl
  rw [← hbody]
  exact (if_neg (Nat.not_lt.2 hlen)).trans (if_neg (Nat.not_lt.2 h))

/-- A whole frame: what the checks make of it, and the bytes behind it. -/
theorem assembleRollBody_whole {payload : List Byte} (hpayload : payload.length = l1.toNat * 256 + l0.toNat)
    (hlen : l1.toNat * 256 + l0.toNat ≤ 1024) (c1 c0 : Byte) (tail : List Byte) :
    assembleRollBody (kind :: l1 :: l0 :: (payload ++ c1 :: c0 :: tail)) =
      .frame (checkRollFrame kind payload [c1, c0] (kind :: l1 :: l0 :: payload)) tail
        (kind :: l1 :: l0 :: (payload ++ c1 :: c0 :: tail)) := by
  have hwhole : l1.toNat * 256 + l0.toNat + 2 ≤ (payload ++ c1 :: c0 :: tail).length := by
    rw [List.length_append, hpayload]
    exact Nat.add_le_add_left (Nat.le_add_left 2 tail.length) _
  have hbehind : (payload ++ c1 :: c0 :: tail).drop (payload.length + 2) = tail :=
    List.drop_length_add_append ..
  rw [assembleRollBody_enough hlen hwhole, be2_toNat, ← hpayload, hbehind, List.take_left, List.drop_left]
  rfl

variable {payload crc body : List Byte}

theorem checkRollFrame_crc (h : crcBytes body ≠ crc) : checkRollFrame kind payload crc body = .rollLinkFrameError .crc :=
  if_pos h

theorem checkRollFrame_sound (h : crcBytes body = crc) : checkRollFrame kind payload crc body =
    if kind = 0x01 then if payload.length = 131 then parseScan payload else .rollLinkFrameError .payload
    else if kind = 0x10 then
      match payload with
      | id :: k :: ops => parseKind id k ops
      | _ => .rollLinkFrameError .payload
    else .rollLinkFrameError .kind := if_neg (not_not.2 h)

theorem parseScan_cells (a b c : Byte) (cells : Vector Byte 128) :
    parseScan (a :: b :: c :: cells.toList) = .scanLine (a ++ b ++ c) cells := by
  have hcells : (Vector.ofFn fun i : Fin 128 => byteAt (a :: b :: c :: cells.toList) (3 + i.val)) = cells := by
    ext i hi
    simp [byteAt, Nat.add_comm 3 i, hi]
  exact congrArg (Instr.scanLine _) hcells
end

end Sys2Proof.Machine

namespace Sys2Proof.Machine

/-! ### Board frames (R143, R183) -/

/-- What a sound frame of a board carries. -/
theorem checkActionFrame_sound {head channel p1 p0 : Byte} {crc : List Byte} (h : crcBytes [head, channel, p1, p0] = crc) :
    checkActionFrame head channel p1 p0 crc = match head.toNat % 16 with
      | 8 => .strikeReport (BitVec.ofNat 4 (head.toNat / 16)) channel (p1 ++ p0)
      | 9 => .restReport (BitVec.ofNat 4 (head.toNat / 16)) channel
      | 10 => match p1.toNat * 256 + p0.toNat with
        | 1 => .faultReport (BitVec.ofNat 4 (head.toNat / 16)) .overcurrent
        | 2 => .faultReport (BitVec.ofNat 4 (head.toNat / 16)) .thermal
        | 3 => .faultReport (BitVec.ofNat 4 (head.toNat / 16)) .supply
        | _ => .strayReport
      | _ => .strayReport := by
  have hboard : head.extractLsb' 4 4 = BitVec.ofNat 4 (head.toNat / 16) := by
    apply BitVec.eq_of_toNat_eq
    rw [BitVec.extractLsb'_toNat, Nat.shiftRight_eq_div_pow]
    rfl
  have hkind : (head.extractLsb' 0 4).toNat = head.toNat % 16 := BitVec.extractLsb'_toNat ..
  unfold checkActionFrame
  rw [if_neg (not_not.2 h), hboard, hkind, be2_toNat]
  rfl

/-- A frame whose CRC, kind or reason fails is a stray report. -/
theorem checkActionFrame_stray {head channel p1 p0 : Byte} {crc : List Byte}
    (h : ¬crcBytes [head, channel, p1, p0] = crc ∨ head.toNat % 16 < 8 ∨ 10 < head.toNat % 16 ∨
      (head.toNat % 16 = 10 ∧ (p1.toNat * 256 + p0.toNat = 0 ∨ 3 < p1.toNat * 256 + p0.toNat))) :
    checkActionFrame head channel p1 p0 crc = .strayReport := by
  by_cases hsound : crcBytes [head, channel, p1, p0] = crc
  · rw [checkActionFrame_sound hsound]
    have hfails := h.resolve_left (not_not.2 hsound)
    split
    · omega
    · omega
    · split
      case h_4 => rfl
      all_goals omega
    · rfl
  · exact if_pos hsound

theorem assembleAction_short {rest : List Byte} (h : rest.length < 6) : assembleAction (0x5A :: rest) = .more := by
  refine (if_pos rfl).trans ?_
  split
  · simp only [List.length_cons] at h
    omega
  · rfl

/-! ### Which board frames are discarded -/

theorem presentBoard_none_iff (s : State) (n : BitVec 4) : s.presentBoard n = none ↔
    s.port.profile = none ∨ ∀ b : Board, b.val = n.toNat → (s.board b).present = false := by
  have hboard : ∀ b : Board, b.val = n.toNat → boardOf? n.toNat = some b := fun b hb =>
    hb ▸ dif_pos b.isLt
  unfold State.presentBoard
  constructor
  · intro h
    by_cases hp : s.port.profile = none
    · exact .inl hp
    · refine .inr fun b hb => ?_
      rw [hboard b hb] at h
      simpa [Option.filter, Option.isSome_iff_ne_none.2 hp] using h
  · intro h
    refine Option.filter_eq_none_iff.2 fun b hb => ?_
    rcases h with hp | habsent
    · simp [hp]
    · have hval : b.val = n.toNat := by
        unfold boardOf? at hb
        split at hb
        · exact (Option.some.inj hb) ▸ rfl
        · cases hb
      simp [habsent b hval]

/-! ### Frames that fail (R165) -/

theorem takeRollFrame_error {s : State} {check : FrameCheck} {afterFrame afterSync : List Byte}
    (h : assembleRoll s.link.rollRx = .frame (.rollLinkFrameError check) afterFrame afterSync) :
    takeRollFrame s = exec (.rollLinkFrameError check) (setRollRx afterSync s) := by
  unfold takeRollFrame
  rw [h]

theorem takeRollFrame_frame {s : State} {c : Instr} {afterFrame afterSync : List Byte}
    (h : assembleRoll s.link.rollRx = .frame c afterFrame afterSync) (hc : ∀ check, c ≠ .rollLinkFrameError check) :
    takeRollFrame s = if isRequest c && 4 ≤ s.responsesDue then
        exec (.rollLinkFrameError .backlog) (setRollRx afterSync s)
      else exec c (setRollRx afterFrame s) := by
  unfold takeRollFrame
  rw [h]
  split
  · next heq => cases heq; exact absurd rfl (hc _)
  · next heq => cases heq; rfl
  · next heq => cases heq

theorem exec_request_full {c : Instr} {s : State} (hrequest : isRequest c = true) (hfull : 4 ≤ s.responsesDue)
    (hsettled : s.settled) : exec c s = .next ((raise .linkError (count .lengthKindErrors s)).ended s.mgmt.flags) := by
  obtain ⟨take, htake⟩ := exec_request c hrequest
  rw [htake, ← failFrame_settled .lengthKindErrors hsettled]
  exact congrArg _ (if_pos hfull)

/-- Settles O6: noise, SYNC, length and checks are taken in the order of `assembleRoll` and `assembleAction`. -/
theorem failedFrameIsCountedAndFlagged : Obligations.FailedFrameIsCountedAndFlagged := by
  unfold Obligations.FailedFrameIsCountedAndFlagged
  refine ⟨fun check s hsettled => ?_, fun c s hsettled hrequest hfull => exec_request_full hrequest hfull hsettled, ?_,
    crcBytes_eq, fun c => rfl, fun board channel measured reason s => ?_, fun noise rest => ?_, ?_, ?_, ?_⟩
  · rw [← failFrame_settled _ hsettled]
    cases check <;> rfl
  · intro noise payload tail kind l1 l0 c1 c0 hnoise length body behind bytes made
    have hmade : ∀ {c d : Instr}, payload.length = length → length ≤ 1024 →
        checkRollFrame kind payload [c1, c0] body = d → d = c → made c := fun hpayload hlen hcheck hd => by
      refine (assembleRoll_sync hnoise _).trans ((assembleRollBody_whole hpayload hlen c1 c0 tail).trans ?_)
      rw [hcheck.trans hd]
      rfl
    refine ⟨?_, fun rest hlen hrest => ?_, fun hlen => ?_, fun hpayload hlen => ⟨fun hcrc => ?_, fun hcrc h1 h2 => ?_,
      fun hcrc h1 h2 => ?_, fun a b c cells hcrc h1 h2 => ?_, fun hcrc h1 h2 => ?_, fun id k ops hcrc h1 h2 => ?_⟩⟩
    · rw [← List.append_nil noise, assembleRoll_skip _ hnoise]
      rfl
    · exact (assembleRoll_sync hnoise _).trans (assembleRollBody_more hlen hrest)
    · exact (assembleRoll_sync hnoise _).trans (assembleRollBody_long hlen _)
    · exact hmade hpayload hlen (checkRollFrame_crc hcrc) rfl
    · exact hmade hpayload hlen (checkRollFrame_sound hcrc) ((if_neg h1).trans (if_neg h2))
    · exact hmade hpayload hlen (checkRollFrame_sound hcrc) ((if_pos h1).trans (if_neg (hpayload ▸ h2)))
    · have h131 : payload.length = 131 := by simp [h2]
      refine hmade hpayload hlen (checkRollFrame_sound hcrc) ((if_pos h1).trans ((if_pos h131).trans ?_))
      rw [h2, parseScan_cells]
    · refine hmade hpayload hlen (checkRollFrame_sound hcrc) ?_
      subst h1
      match payload, hpayload with
      | [], _ => rfl
      | [_], _ => rfl
      | _ :: _ :: _, hpayload => simp only [List.length_cons] at hpayload; omega
    · subst h1 h2
      exact hmade hpayload hlen (checkRollFrame_sound hcrc) rfl
  · exact ⟨Option.isNone_iff_eq_none, Option.isNone_iff_eq_none,
      Option.isNone_iff_eq_none.trans (presentBoard_none_iff s board), rfl⟩
  · refine ⟨fun hnoise hrest => (assembleRoll_sync hnoise rest).trans (assembleRollBody_short hrest), fun hnoise hrest => ?_⟩
    exact (assembleAction_skip _ hnoise).trans (assembleAction_short hrest)
  · intro c afterFrame afterSync s h left
    refine ⟨fun check hc => ?_, fun hrequest hfull => ?_, fun hc hroom => ?_⟩
    · subst hc
      exact takeRollFrame_error h
    · have hc : ∀ check, c ≠ .rollLinkFrameError check := fun check hc => by subst hc; cases hrequest
      exact (takeRollFrame_frame h hc).trans (if_pos (by simp [hrequest, hfull]))
    · refine (takeRollFrame_frame h hc).trans (if_neg fun hfull => ?_)
      obtain ⟨hrequest, hfull⟩ := Bool.and_eq_true_iff.1 hfull
      exact absurd (hroom hrequest) (Nat.not_lt.2 (of_decide_eq_true hfull))
  · intro noise tail head channel p1 p0 c1 c0 hnoise behind parameter board sound made
    have hframe : assembleAction (noise ++ 0x5A :: behind) =
        .frame (checkActionFrame head channel p1 p0 [c1, c0]) tail behind := by
      rw [assembleAction_skip _ hnoise]
      rfl
    have hmade : ∀ {c}, checkActionFrame head channel p1 p0 [c1, c0] = c → made c := fun hc => hc ▸ hframe
    refine ⟨?_, fun hsound hkind => hmade ?_, fun hsound hkind => hmade ?_, fun hsound hkind hreason => hmade ?_,
      fun hsound hkind hreason => hmade ?_, fun hsound hkind hreason => hmade ?_, fun h => hmade (checkActionFrame_stray h)⟩
    · rw [← List.append_nil noise, assembleAction_skip _ hnoise]
      rfl
    · rw [checkActionFrame_sound hsound, hkind]
      rfl
    · rw [checkActionFrame_sound hsound, hkind]
      rfl
    · rw [checkActionFrame_sound hsound, hkind, show p1.toNat * 256 + p0.toNat = 1 from hreason]
      rfl
    · rw [checkActionFrame_sound hsound, hkind, show p1.toNat * 256 + p0.toNat = 2 from hreason]
      rfl
    · rw [checkActionFrame_sound hsound, hkind, show p1.toNat * 256 + p0.toNat = 3 from hreason]
      rfl
  · intro c afterFrame afterSync s h
    show takeActionFrame s = _
    unfold takeActionFrame
    rw [h]
    rfl

end Sys2Proof.Machine

namespace Sys2Proof.Machine

/-! ### Frames that wait for a RESET FULL (R177) -/

theorem inboundWaits_iff (s : State) : s.inboundWaits = true ↔ s.mgmt.fullReset ≠ .none ∨ s.mgmt.waiting ≠ [] := by
  simp [State.inboundWaits]

theorem exec_request_waits {c : Instr} {s : State} (hrequest : isRequest c = true) (hroom : s.responsesDue < 4)
    (hwaits : s.inboundWaits = true) : exec c s = .next (addWaiting c s) := by
  obtain ⟨take, htake⟩ := exec_request c hrequest
  rw [htake]
  exact congrArg _ ((if_neg (Nat.not_le.2 hroom)).trans (if_pos hwaits))

theorem exec_scanLine_waits (line : BitVec 24) (cells : Vector Byte 128) {s : State} (hwaits : s.inboundWaits = true) :
    exec (.scanLine line cells) s = .next (addWaiting (.scanLine line cells) s) :=
  congrArg Host.Outcome.next (if_pos hwaits)

theorem waiting_mem_idleEvents {s : State} {c : Instr} {rest : List Instr} (hwaiting : s.mgmt.waiting = c :: rest) :
    IdleEvent.waiting ∈ idleEvents s ↔ s.mgmt.fullReset = .none ∧ (isRequest c = true → s.responsesDue < 4) := by
  by_cases hready : s.mgmt.fullReset = .ready
  · unfold idleEvents
    rw [if_pos hready, hready]
    simp
  · simp [mem_idleEvents hready, waitingReady_iff, hwaiting]

theorem takeWaiting_front {s t : State} {c : Instr} {rest : List Instr} (hwaiting : s.mgmt.waiting = c :: rest)
    (h : exec c { s with mgmt := { s.mgmt with waiting := [] } } = .next t) :
    takeWaiting s = .next { t with mgmt := { t.mgmt with waiting := rest } } := by
  unfold takeWaiting
  rw [hwaiting]
  dsimp only
  rw [h]

/-- Settles O7. -/
theorem inboundFramesWaitForResetFull : Obligations.InboundFramesWaitForResetFull := by
  unfold Obligations.InboundFramesWaitForResetFull
  refine ⟨fun c s hheld hc => ?_, fun c rest s hwaiting => ⟨waiting_mem_idleEvents hwaiting, ?_⟩⟩
  · have hwaits := (inboundWaits_iff s).2 hheld
    rcases hc with ⟨line, cells, rfl⟩ | ⟨hrequest, hroom⟩
    · exact exec_scanLine_waits line cells hwaits
    · exact exec_request_waits hrequest hroom hwaits
  · obtain ⟨t, ht⟩ := exec_next c { s with mgmt := { s.mgmt with waiting := [] } }
    exact ⟨t, ht, takeWaiting_front hwaiting ht⟩

end Sys2Proof.Machine

namespace Sys2Proof.Machine

/-! ### What a pedal takes -/

section
variable {s t : State} (hprofile : t.port.profile = s.port.profile)
  (hservice : ∀ b, (t.board b).service = (s.board b).service) (hparams : ∀ b, (t.board b).params = (s.board b).params)
  (htime : t.clock.actionTime = s.clock.actionTime)
include hprofile hservice hparams htime

/-- What a pedal takes depends on the profile, the boards' service and parameters, and the time. -/
theorem pedalTakes_congr (p : Pedal) (r : PedalRec) : t.pedalTakes p r = s.pedalTakes p r := by
  have hwire : t.pedalWire p = s.pedalWire p := by
    unfold State.pedalWire
    rw [hprofile]
  have hcommands : t.commands p r = s.commands p r := by
    unfold State.commands State.boardEnabled
    rw [hwire]
    simp only [hservice]
  have hwidth : t.engageWidth p = s.engageWidth p := by
    unfold State.engageWidth
    rw [hwire]
    simp only [hparams]
  unfold State.pedalTakes State.expiry
  rw [hcommands, hwidth, htime]

theorem pedalSends_congr (hpedals : t.pedals = s.pedals) (f : PedalRec → PedalRec) : t.pedalSends f = s.pedalSends f := by
  have hpedal : ∀ p, t.pedal p = s.pedal p := fun p => by
    cases p
    · exact congrArg PedalUnit.sustain hpedals
    · exact congrArg PedalUnit.soft hpedals
  have hwire : ∀ p, t.pedalWire p = s.pedalWire p := fun p => by
    unfold State.pedalWire
    rw [hprofile]
  unfold State.pedalSends
  simp only [hpedal, hwire, pedalTakes_congr hprofile hservice hparams htime]
end

/-! ### The cut (R5) -/

theorem completeSwitch_eq (s : State) : completeSwitch s = { s with
    clock := { s.clock with base := s.clock.switch.getD s.clock.base, switch := none } } := by
  obtain ⟨_, clock, _, _, _, _, _, _, _, _, _, _, _, _⟩ := s
  obtain ⟨_, _, _, _, switch, _⟩ := clock
  cases switch <;> rfl

theorem cutSent_eq (s : State) : cutSent s = { s with
    calib := { s.calib with probe := s.calib.probe.map fun p =>
      if p.busy then { p with busy := false, result := some .none, endCause := some .abandoned } else p }
    mgmt := { s.mgmt with flags := if s.probeBusy then s.mgmt.flags ||| Flag.probeDone.mask else s.mgmt.flags }
    link := { s.link with sentDrive := s.link.sentDrive ++ offKeys (fun _ r => r.driven) s } } := by
  unfold cutSent abandonProbe
  rw [finishProbe_eq]
  rfl

/-- What the cut makes of a key (R5, R132). -/
theorem cut_key (s : State) (k : Key) (r : KeyRec) : KeyRec.cut s k r =
    let bare := { r with pending := none, owed := none, refused := none }
    match bare.phase with
    | .resting | .releasing | .offline => bare
    | .deferred => { bare with phase := .resting, relWait := false, pulseEnd := none, holdLimit := none
                               returnTimer := none, pulseSent := false, expLead := none
                               observed := if bare.pulseSent then .up else bare.observed
                               snapshot := if bare.pulseSent then .up else bare.observed }
    | .striking => { bare with phase := .releasing, relWait := false, pulseEnd := none, holdLimit := none,
                               returnTimer := some (s.returnTimerFor k), cutShort := true }
    | .held => { bare with phase := .releasing, relWait := false, pulseEnd := none, holdLimit := none,
                           returnTimer := some (s.returnTimerFor k) } := by
  obtain ⟨phase, _, pulseSent, _⟩ := r
  cases phase <;> cases pulseSent <;> rfl

theorem cutKeys_eq (s : State) : cutKeys s = { cutSent s with
    sched := { queue := [], owed := 0, deferral := [], total := 0 }
    keys := Vector.ofFn fun k => KeyRec.cut s k (s.key k)
    port := { s.port with boards := Vector.ofFn fun b => { s.board b with inFlight := 0 } } } := by
  unfold cutKeys
  rw [cutSent_eq]
  rfl

theorem cutKeys_pedalTakes (s : State) (p : Pedal) (r : PedalRec) : (cutKeys s).pedalTakes p r = s.pedalTakes p r := by
  refine pedalTakes_congr ?_ (fun b => ?_) (fun b => ?_) ?_ p r
  all_goals rw [cutKeys_eq]
  · simp [State.board]
  · simp [State.board]
  · rw [cutSent_eq]

theorem cutKeys_pedalSends (s : State) (f : PedalRec → PedalRec) : (cutKeys s).pedalSends f = s.pedalSends f := by
  refine pedalSends_congr ?_ (fun b => ?_) (fun b => ?_) ?_ ?_ f
  all_goals rw [cutKeys_eq]
  · simp [State.board]
  · simp [State.board]
  · rw [cutSent_eq]
  · rw [cutSent_eq]

theorem cut_spec (s : State) : cut s = { s with
    perf := { s.perf with lossTimer := none, pausePoint := none }
    clock := { s.clock with base := s.clock.switch.getD s.clock.base, switch := none }
    sched := { queue := [], owed := 0, deferral := [], total := 0 }
    keys := Vector.ofFn fun k => KeyRec.cut s k (s.key k)
    pedals := { sustain := (s.pedalTakes .sustain s.pedals.sustain.cut).1
                soft := (s.pedalTakes .soft s.pedals.soft.cut).1 }
    port := { s.port with boards := Vector.ofFn fun b => { s.board b with inFlight := 0 } }
    calib := { s.calib with probe := s.calib.probe.map fun p =>
      if p.busy then { p with busy := false, result := some .none, endCause := some .abandoned } else p }
    mgmt := { s.mgmt with flags := if s.probeBusy then s.mgmt.flags ||| Flag.probeDone.mask else s.mgmt.flags }
    link := { s.link with sentDrive := s.link.sentDrive ++
      (offKeys (fun _ r => r.driven) s ++ s.pedalSends PedalRec.cut) } } := by
  rw [cut_eq]
  unfold cutTargets
  rw [changePedals_eq, completeSwitch_eq, cutKeys_pedalTakes, cutKeys_pedalTakes, cutKeys_pedalSends, cutKeys_eq, cutSent_eq,
    ← List.append_assoc]

/-- Settles O9: `cut_spec`, with each key's part written out, and the lookups of the profile. -/
theorem cutEmptiesThePendingWork : Obligations.CutEmptiesThePendingWork := by
  unfold Obligations.CutEmptiesThePendingWork
  refine ⟨fun s => ?_, fun s => ?_⟩
  · have hkey := fun k => cut_key s k (s.key k)
    intro pedal sends
    rw [cut_spec]
    simp only [hkey]
    rfl
  · intro offTo
    refine ⟨fun c => offKeys_eq c s, fun c => rfl, fun a => ⟨rfl, fun _ _ => rfl⟩, fun p a => rfl,
      fun k b channel => keyWire_eq_some s k b channel, fun p b channel => ?_, keyOnBoard_iff s, pedalOnBoard_iff s, fun b => ?_,
      fun k => rfl, rfl, rfl, fun b => rfl, ?_, rfl⟩
    · cases p <;> exact pedalWire_eq_some s _ b channel
    · exact decide_eq_true_iff
    · unfold allKeys
      rfl

end Sys2Proof.Machine

namespace Sys2Proof.Machine

/-! ### What the cut leaves settled -/

theorem cut_key_mismatch (s : State) (k : Key) : ((cut s).key k).mismatch = true → (s.key k).mismatch = true := by
  have hkey : (cut s).key k = KeyRec.cut s k (s.key k) := by
    rw [cut_spec]
    simp [State.key]
  rw [hkey, cut_key]
  unfold KeyRec.mismatch
  dsimp only
  cases (s.key k).phase <;> cases (s.key k).pulseSent <;> simp

theorem cut_flag (s : State) (f : Flag) (h : s.flag f = true) : (cut s).flag f = true := by
  rw [cut_spec]
  unfold State.flag at h ⊢
  dsimp only
  split
  · simp [h]
  · exact h

/-- After the cut a state is settled in any state but DRAINING. -/
theorem settled_of_cut {s t : State} (hs : s.settled) (hstate : t.perf.state ≠ .draining) (hkeys : t.keys = (cut s).keys)
    (hflags : ∀ f, (cut s).flag f = true → t.flag f = true) : t.settled := by
  refine settled_of_state hstate fun hmismatch => hflags _ (cut_flag s _ (hs.2 ?_))
  refine anyMismatch_of_keys (fun k hk => cut_key_mismatch s k ?_) hmismatch
  have hkey : t.key k = (cut s).key k := congrArg (fun v : Vector KeyRec 88 => v[k.val]) hkeys
  rwa [← hkey]

theorem flag_raise_of {f g : Flag} {s : State} (h : s.flag f = true) : (raise g s).flag f = true := by
  rw [flag_raise, h]
  rfl

theorem flag_raiseIf_of {c : Bool} {f g : Flag} {s : State} (h : s.flag f = true) : (raiseIf c g s).flag f = true := by
  rw [flag_raiseIf, h]
  rfl

/-! ### STOP and the loss of the source (R4, R7) -/

theorem probeBusy_iff (s : State) : s.probeBusy = true ↔ ∃ p, s.calib.probe = some p ∧ p.busy = true := by
  unfold State.probeBusy
  cases s.calib.probe <;> simp

theorem takeStop_idle {s : State} (hstate : s.perf.state = .stopped) (hidle : s.probeActivity = false) : takeStop s = s :=
  if_pos ⟨hstate, hidle⟩

theorem takeStop_cuts {s : State} (h : s.perf.state ≠ .stopped ∨ s.probeActivity = true) :
    takeStop s = raise .stopped (stopWith .request (cut s)) := by
  refine if_neg fun ⟨hstate, hidle⟩ => ?_
  rcases h with h | h
  · exact h hstate
  · rw [hidle] at h
    cases h

/-- Settles O10. -/
theorem stopCutsThePerformance : Obligations.StopCutsThePerformance := by
  unfold Obligations.StopCutsThePerformance
  intro id s hready hsettled busy activity
  have hactivity : s.probeActivity = true ↔ activity := probeActivity_iff s
  have hexec : exec (.stop id (.good ())) s = request (.stop id (.good ())) id (fun s => (takeStop s, .ok)) s := rfl
  refine ⟨probeBusy_iff s, fun hstate hidle => ?_, fun h => ?_⟩
  · have hstop := takeStop_idle hstate (Bool.not_eq_true _ ▸ mt hactivity.1 hidle)
    rw [hexec]
    exact request_responds hready _ _ (by rw [hstop]) hsettled rfl
  · have hstop := takeStop_cuts (h.imp_right hactivity.2)
    rw [hexec, request_settled hready _ _ _ (by
      dsimp only
      rw [hstop]
      exact settled_of_cut hsettled nofun rfl fun f => flag_raise_of)]
    dsimp only
    rw [hstop]
    rfl

theorem reacquire_eq (treatment : Treatment) (s : State) : reacquire treatment s =
    raiseIf (s.clock.loop.mode ≠ .off && s.clock.loop.locked) .lockChange { s with clock := { s.clock with
      loop := if s.clock.loop.mode = .off then s.clock.loop else
        { s.clock.loop with mode := .acquiring, goodRun := 0, badRun := 0, locked := false, treatment := treatment } } } := by
  unfold reacquire setLoop
  split
  · next hoff => simp [hoff, raiseIf]
  · next hon =>
    have hlocked : (decide (s.clock.loop.mode ≠ .off) && s.clock.loop.locked) = (false != s.clock.loop.locked) := by
      simp [hon]
    rw [hlocked]
    rfl

theorem exec_lossTimeout (s : State) : exec .lossTimeout s =
    timedEvent (s.perf.state = .playing && s.reached s.perf.lossTimer) loseSource s := rfl

/-- Settles O11. -/
theorem lossStopsThePerformance : Obligations.LossStopsThePerformance := by
  unfold Obligations.LossStopsThePerformance
  intro s hsettled
  have hdue : (decide (s.perf.state = .playing) && s.reached s.perf.lossTimer) = true ↔
      s.perf.state = .playing ∧ ∃ t, s.perf.lossTimer = some t ∧ t ≤ s.clock.actionTime := by
    rw [Bool.and_eq_true, decide_eq_true_iff, reached_iff]
  rw [exec_lossTimeout]
  refine ⟨fun t hstate htimer hpast => ?_, fun h => ?_⟩
  · have hlost : loseSource s = raise .stopped (raise .sourceLost
        (raiseIf (s.clock.loop.mode ≠ .off && s.clock.loop.locked) .lockChange { cut s with
          perf := { (cut s).perf with state := .stopped, stopReason := .lost }
          clock := { (cut s).clock with
            base := .free, switch := none
            loop := if s.clock.loop.mode = .off then s.clock.loop else
              { s.clock.loop with mode := .acquiring, goodRun := 0, badRun := 0, locked := false } } })) := by
      have hloop : (cut s).clock.loop = s.clock.loop := by rw [cut_spec]
      unfold loseSource stopWith
      dsimp only
      rw [reacquire_eq, hloop]
    rw [hdue.2 ⟨hstate, t, htimer, hpast⟩, timedEvent_due, ← hlost, settle_of_settled]
    rw [hlost]
    refine settled_of_cut hsettled ?_ ?_ fun f hf => flag_raise_of (flag_raise_of (flag_raiseIf_of hf))
    · simp
    · simp
  · have hnot : (decide (s.perf.state = .playing) && s.reached s.perf.lossTimer) = false := by
      rw [← Bool.not_eq_true, hdue]
      rintro ⟨hstate, t, htimer, hpast⟩
      rcases h with h | h | ⟨u, hu, hlater⟩
      · exact h hstate
      · rw [htimer] at h; cases h
      · rw [htimer] at hu; cases hu; omega
    rw [hnot]
    rfl

end Sys2Proof.Machine

namespace Sys2Proof.Machine

/-! ### Entering PAUSED (R13, R95, R133) -/

/-- The keys on entering PAUSED, with their OFFs (R133). -/
def pausedKeys (s : State) : State :=
  mapKeys (KeyRec.paused s) (sendAll (offKeys (fun _ r => r.phase = .held) s) s)

theorem pausedKeys_eq (s : State) : pausedKeys s = { s with
    keys := Vector.ofFn fun k => KeyRec.paused s k (s.key k)
    link := { s.link with sentDrive := s.link.sentDrive ++ offKeys (fun _ r => r.phase = .held) s } } := rfl

theorem pausedTargets_eq (s : State) : pausedTargets s = changePedals PedalRec.paused (pausedKeys s) := rfl

theorem enterPaused_spec (s : State) : enterPaused s = { s with
    perf := { s.perf with state := .paused, lossTimer := none, pausePoint := none }
    keys := Vector.ofFn fun k => KeyRec.paused s k (s.key k)
    pedals := { sustain := (s.pedalTakes .sustain s.pedals.sustain.paused).1
                soft := (s.pedalTakes .soft s.pedals.soft.paused).1 }
    mgmt := { s.mgmt with flags := s.mgmt.flags ||| Flag.paused.mask }
    link := { s.link with sentDrive := s.link.sentDrive ++
      (offKeys (fun _ r => r.phase = .held) s ++ s.pedalSends PedalRec.paused) } } := by
  have htakes : ∀ p r, (pausedKeys s).pedalTakes p r = s.pedalTakes p r := fun p r => by
    refine pedalTakes_congr ?_ (fun b => ?_) (fun b => ?_) ?_ p r <;> simp only [pausedKeys_eq, State.board]
  have hsends : (pausedKeys s).pedalSends PedalRec.paused = s.pedalSends PedalRec.paused := by
    refine pedalSends_congr ?_ (fun b => ?_) (fun b => ?_) ?_ ?_ _ <;> simp only [pausedKeys_eq, State.board]
  rw [enterPaused_eq, pausedTargets_eq, changePedals_eq, htakes, htakes, hsends, pausedKeys_eq, ← List.append_assoc]
  rfl

theorem key_paused (s : State) (k : Key) (r : KeyRec) : KeyRec.paused s k r =
    match r.phase with
    | .striking => { r with relWait := true }
    | .held => { r with phase := .releasing, relWait := false, pulseEnd := none, holdLimit := none,
                        returnTimer := some (s.returnTimerFor k) }
    | .resting | .deferred | .releasing | .offline => r := by
  unfold KeyRec.paused KeyRec.releasing
  cases r.phase <;> rfl

theorem paused_mismatch {s : State} {k : Key} {r : KeyRec} : (KeyRec.paused s k r).mismatch = true → r.mismatch = true := by
  cases hphase : r.phase <;> simp [KeyRec.paused, KeyRec.releasing, KeyRec.mismatch, hphase]

theorem enterPaused_settled {s : State} (hs : s.settled) : (enterPaused s).settled := by
  rw [enterPaused_spec]
  refine settled_of_state nofun fun hmismatch => ?_
  have hkeys : s.anyMismatch = true := by
    refine anyMismatch_of_keys (fun k hk => ?_) hmismatch
    have hkey : (KeyRec.paused s k (s.key k)).mismatch = true := by simpa [State.key] using hk
    exact paused_mismatch hkey
  exact flag_raise_of (s := s) (hs.2 hkeys)

/-- Settles O12. -/
theorem enteringPausedReleasesTheKeys : Obligations.EnteringPausedReleasesTheKeys := by
  unfold Obligations.EnteringPausedReleasesTheKeys
  refine ⟨fun s => ?_, fun s => tick_playTime_paused⟩
  have hkey := fun k => key_paused s k (s.key k)
  intro pedal sends
  rw [enterPaused_spec]
  simp only [hkey]
  rfl

/-- The pause point that PAUSE sets is taken by entering PAUSED (R12). -/
theorem takePause_playing {s : State} (h : s.perf.state = .playing) : takePause s = (enterPaused s, .ok) := by
  unfold takePause
  rw [if_pos h, enterPaused_spec, enterPaused_spec]
  rfl

theorem takePause_busy {s : State} (h : s.perf.state ≠ .playing) : takePause s = (s, .busy) := if_neg h

theorem exec_pause (id : Byte) (s : State) :
    exec (.pause id (.good ())) s = request (.pause id (.good ())) id takePause s := rfl

/-- Settles O13. -/
theorem pauseEntersPaused : Obligations.PauseEntersPaused := by
  unfold Obligations.PauseEntersPaused
  intro id s hsettled
  have hexec : exec .pausePointReached s = timedEvent s.pauseReached enterPaused s := rfl
  refine ⟨fun hready hstate => ?_, fun hready hstate => ?_, fun t hstate hpoint hpast => ?_, fun h => ?_⟩
  · rw [exec_pause, request_settled hready _ _ _ (by rw [takePause_playing hstate]; exact enterPaused_settled hsettled),
      takePause_playing hstate]
  · rw [exec_pause]
    exact request_responds hready _ _ (takePause_busy hstate) hsettled rfl
  · rw [hexec, (pauseReached_iff s).2 ⟨hstate, t, hpoint, hpast⟩, timedEvent_due,
      settle_of_settled (enterPaused_settled hsettled)]
  · have hnot : s.pauseReached = false := by
      rw [← Bool.not_eq_true, pauseReached_iff]
      rintro ⟨hstate, t, hpoint, hpast⟩
      rcases h with h | h | ⟨u, hu, hlater⟩
      · exact h hstate
      · rw [hpoint] at h; cases h
      · rw [hpoint] at hu; cases hu; omega
    rw [hexec, hnot]
    rfl

end Sys2Proof.Machine

namespace Sys2Proof.Machine

/-! ### The pending strikes that join the Deferral List (R15) -/

/-- The entry a RESTING key's pending strike makes. -/
def State.joins (s : State) (k : Key) : Option DeferralEntry :=
  if (s.key k).phase = .resting then (s.key k).pending.map fun st => ⟨k, st⟩ else none

/-- The record of a key whose pending strike has joined. -/
def State.joined (s : State) (k : Key) : KeyRec :=
  match s.joins k with
  | some e => { s.key k with phase := .deferred, current := some e.strike.tag, pending := none }
  | none => s.key k

/-- Joining, for one key. -/
def joinStep (s : State) (k : Key) : State :=
  match (s.key k).phase, (s.key k).pending with
  | .resting, some st => joinDeferral k st (updateKey k (fun r => { r with pending := none }) s)
  | _, _ => s

theorem joinPending_eq (s : State) : joinPending s = allKeys.foldl joinStep s := rfl

theorem set_key_self (s : State) (k : Key) : s.keys.set k (s.key k) = s.keys := by simp [State.key]

theorem joinStep_eq (s : State) (k : Key) : joinStep s k = { s with
    keys := s.keys.set k (s.joined k)
    sched := { s.sched with deferral := (s.joins k).toList.foldl (fun l e => insertEntry e l) s.sched.deferral } } := by
  unfold joinStep State.joined State.joins
  split
  · next st hphase hpending =>
    rw [if_pos hphase, hpending]
    exact updateKey_setKey k (fun r => { r with phase := .deferred, current := some st.tag })
      { s.key k with pending := none }
      { s with sched := { s.sched with deferral := insertEntry ⟨k, st⟩ s.sched.deferral } }
  · next hnot =>
    have hnone : (if (s.key k).phase = .resting then (s.key k).pending.map fun st => (⟨k, st⟩ : DeferralEntry) else none) =
        none := by
      split
      · next hphase =>
        cases hpending : (s.key k).pending with
        | none => rfl
        | some st => exact absurd hpending (hnot st hphase)
      · rfl
    rw [hnone]
    dsimp only
    rw [set_key_self]
    rfl

theorem joins_joinStep {s : State} {a k : Key} (h : k ≠ a) : (joinStep s a).joins k = s.joins k ∧
    (joinStep s a).key k = s.key k := by
  have hkey : (joinStep s a).key k = s.key k := by
    rw [joinStep_eq]
    simp [State.key, Fin.val_ne_of_ne h.symm]
  unfold State.joins
  exact ⟨by rw [hkey], hkey⟩

theorem key_joinStep_self (s : State) (k : Key) : (joinStep s k).key k = s.joined k := by
  rw [joinStep_eq]
  simp [State.key]

/-- Joining, for a list of keys. -/
theorem foldl_joinStep {l : List Key} (hl : l.Nodup) (s : State) : l.foldl joinStep s = { s with
    keys := Vector.ofFn fun k => if k ∈ l then s.joined k else s.key k
    sched := { s.sched with deferral := (l.filterMap s.joins).foldl (fun l e => insertEntry e l) s.sched.deferral } } := by
  induction l generalizing s with
  | nil =>
    have hkeys : (Vector.ofFn fun k => if k ∈ ([] : List Key) then s.joined k else s.key k) = s.keys := by
      ext i hi
      simp [State.key]
    rw [hkeys]
    rfl
  | cons a l ih =>
    obtain ⟨hnot, hl⟩ := List.nodup_cons.1 hl
    have hother : ∀ k ∈ l, (joinStep s a).joins k = s.joins k ∧ (joinStep s a).key k = s.key k := fun k hk =>
      joins_joinStep fun hka => hnot (hka ▸ hk)
    have hdeferral : (joinStep s a).sched.deferral = (s.joins a).toList.foldl (fun l e => insertEntry e l) s.sched.deferral := by
      rw [joinStep_eq]
    have hmap : l.filterMap (joinStep s a).joins = l.filterMap s.joins :=
      List.filterMap_congr fun k hk => (hother k hk).1
    have hkeys : (Vector.ofFn fun k => if k ∈ l then (joinStep s a).joined k else (joinStep s a).key k) =
        Vector.ofFn fun k => if k ∈ a :: l then s.joined k else s.key k := by
      refine congrArg Vector.ofFn (funext fun k => ?_)
      by_cases hka : k = a
      · subst hka
        rw [if_neg hnot, if_pos List.mem_cons_self, key_joinStep_self]
      · by_cases hk : k ∈ l
        · obtain ⟨hjoins, hkey⟩ := hother k hk
          rw [if_pos hk, if_pos (List.mem_cons_of_mem a hk)]
          unfold State.joined
          rw [hjoins, hkey]
        · rw [if_neg hk, if_neg (by simp [hka, hk]), (joins_joinStep hka).2]
    have hlist : ((a :: l).filterMap s.joins).foldl (fun l e => insertEntry e l) s.sched.deferral =
        (l.filterMap s.joins).foldl (fun l e => insertEntry e l)
          ((s.joins a).toList.foldl (fun l e => insertEntry e l) s.sched.deferral) := by
      cases ha : s.joins a <;> simp [ha]
    rw [List.foldl_cons, ih hl, hkeys, hmap, hdeferral, hlist, joinStep_eq]

theorem joinPending_spec (s : State) : joinPending s = { s with
    keys := Vector.ofFn s.joined
    sched := { s.sched with deferral :=
      (allKeys.filterMap s.joins).foldl (fun l e => insertEntry e l) s.sched.deferral } } := by
  rw [joinPending_eq, foldl_joinStep allKeys_nodup]
  simp only [mem_allKeys, if_true]

theorem joinPending_none {s : State} (h : ∀ k, (s.key k).phase = .resting → (s.key k).pending = none) :
    joinPending s = s := by
  have hstep : ∀ k, joinStep s k = s := fun k => by
    unfold joinStep
    split
    · next st hphase hpending =>
      rw [h k hphase] at hpending
      cases hpending
    · rfl
  have hfold : ∀ l : List Key, l.foldl joinStep s = s := fun l => by
    induction l with
    | nil => rfl
    | cons k l ih => rw [List.foldl_cons, hstep, ih]
  exact hfold allKeys

theorem runArbiter_empty {s : State} (h : s.sched.deferral = []) : runArbiter s = s := by
  have hpass : arbiterPass s = none := by
    unfold arbiterPass
    rw [h]
    split <;> rfl
  rw [runArbiter_eq, hpass]

theorem filterMap_allKeys {α : Type} (f : Key → Option α) : allKeys.filterMap f = (List.ofFn f).filterMap fun x => x := by
  have hmap : List.ofFn f = (List.ofFn id).map f := by
    rw [List.map_ofFn]
    rfl
  unfold allKeys
  rw [hmap, List.filterMap_map]
  rfl

/-! ### RESUME (R15) -/

/-- The state in which the pending strikes of a RESUME join the Deferral List. -/
def State.resumes (s : State) : State :=
  changePedals PedalRec.resumed (reacquire .reseed { s with perf := { s.perf with state := .playing } })

theorem changePedals_raiseIf (c : Bool) (fl : Flag) (f : PedalRec → PedalRec) (s : State) :
    changePedals f (raiseIf c fl s) = raiseIf c fl (changePedals f s) := by
  cases c
  · rfl
  · rw [changePedals_eq, raiseIf, if_pos rfl, raiseIf, if_pos rfl, changePedals_eq]
    rfl

theorem resumes_eq (s : State) : s.resumes = raiseIf (s.clock.loop.mode ≠ .off && s.clock.loop.locked) .lockChange { s with
    perf := { s.perf with state := .playing }
    clock := { s.clock with loop := if s.clock.loop.mode = .off then s.clock.loop else
      { s.clock.loop with mode := .acquiring, goodRun := 0, badRun := 0, locked := false, treatment := .reseed } }
    pedals := { sustain := (s.pedalTakes .sustain s.pedals.sustain.resumed).1
                soft := (s.pedalTakes .soft s.pedals.soft.resumed).1 }
    link := { s.link with sentDrive := s.link.sentDrive ++ s.pedalSends PedalRec.resumed } } := by
  unfold State.resumes
  rw [reacquire_eq, changePedals_raiseIf, changePedals_eq]
  congr 1

/-- Joining and the arbiter keep the time and the tables of the state in which they start. -/
theorem resumePlaying_eq (s : State) : resumePlaying s = { runArbiter (joinPending s.resumes) with
    perf := { (runArbiter (joinPending s.resumes)).perf with
      lossTimer := some (s.expiry (s.clock.timing[2] * 1000)) } } := by
  have hon : HandsOn s.resumes (runArbiter (joinPending s.resumes)) := ((Plays.joinPending _).trans (.runArbiter _)).handsOn
  have hclock : s.resumes.clock.actionTime = s.clock.actionTime ∧ s.resumes.clock.timing = s.clock.timing := by
    rw [resumes_eq, raiseIf_clock]
    exact ⟨rfl, rfl⟩
  have hresume : resumePlaying s = startLossTimer (runArbiter (joinPending s.resumes)) := rfl
  have htime : (runArbiter (joinPending s.resumes)).expiry (runArbiter (joinPending s.resumes)).lossTimeout =
      s.expiry (s.clock.timing[2] * 1000) := by
    unfold State.expiry State.lossTimeout
    rw [hon.clock, hclock.1, hclock.2]
  rw [hresume]
  unfold startLossTimer
  rw [htime]

theorem resumePlaying_settled {s : State} (hs : s.settled) : (resumePlaying s).settled := by
  have hcalm : Calm s.resumes (runArbiter (joinPending s.resumes)) := (Calm.joinPending _).trans (.runArbiter _)
  rw [resumePlaying_eq]
  refine settled_of_state ?_ fun hmismatch => hcalm.flag _ ?_
  · show (runArbiter (joinPending s.resumes)).perf.state ≠ _
    rw [hcalm.perf, resumes_eq, raiseIf_perf]
    nofun
  · rw [resumes_eq]
    refine flag_raiseIf_of (s := { s with perf := _, clock := _, pedals := _, link := _ }) (hs.2 ?_)
    refine anyMismatch_of_keys (fun k hk => ?_) hmismatch
    have hkey : (s.resumes.key k).mismatch = true := hcalm.mismatch k hk
    have hkeys : s.resumes.keys = s.keys := by rw [resumes_eq, raiseIf_keys]
    rwa [key_congr hkeys] at hkey

/-- Settles O14. -/
theorem resumePlaysOn : Obligations.ResumePlaysOn := by
  unfold Obligations.ResumePlaysOn
  intro id s hready hsettled pedal playing timed
  have hplaying : s.resumes = playing := resumes_eq s
  have hkeys : playing.keys = s.keys := by rw [← hplaying, resumes_eq, raiseIf_keys]
  have hsched : playing.sched = s.sched := by rw [← hplaying, resumes_eq, raiseIf_sched]
  have hkey : ∀ k, playing.key k = s.key k := fun k => key_congr hkeys
  have hexec : exec (.resume id (.good ())) s = request (.resume id (.good ())) id takeResume s := rfl
  refine ⟨fun hstate => ?_, fun hdeferral hpending => ?_, ?_, fun hstate => ?_⟩
  · have htake : takeResume s = (resumePlaying s, .ok) := if_pos hstate
    rw [hexec, request_settled hready _ _ _ (by rw [htake]; exact resumePlaying_settled hsettled), htake, resumePlaying_eq,
      hplaying]
  · rw [joinPending_none fun k => by rw [hkey]; exact hpending k]
    exact runArbiter_empty (by rw [hsched, hdeferral])
  · intro joins insert
    have hjoins : playing.joins = joins := funext fun k => by
      unfold State.joins
      rw [hkey]
    have hlist := filterMap_allKeys joins
    have hinsert : (fun l e => insertEntry e l) = insert := funext fun l => funext fun e => insertEntry_eq e l
    have hjoined : playing.joined = fun k => match joins k with
        | some e => { s.key k with phase := .deferred, current := some e.strike.tag, pending := none }
        | none => s.key k := funext fun k => by
      unfold State.joined
      rw [hjoins, hkey]
    have hspec := joinPending_spec playing
    rw [hjoined, hjoins, hlist, hinsert, hsched] at hspec
    exact hspec
  · rw [hexec]
    exact request_responds hready _ _ (if_neg hstate) hsettled rfl

end Sys2Proof.Machine

namespace Sys2Proof.Machine

/-! ### The resets (R18, R176, R177) -/

theorem settled_of_seen {s : State} (hstate : s.perf.state ≠ .draining)
    (hseen : ∀ k, (s.key k).observed = (s.key k).snapshot) : s.settled := by
  refine settled_of_state hstate fun hmismatch => ?_
  obtain ⟨k, -, hk⟩ := (anyMismatch_iff s).1 hmismatch
  exact absurd (hseen k) hk

theorem cut_mgmt_reader (s : State) : (cut s).reader = s.reader ∧ (cut s).mgmt = { s.mgmt with
    flags := if s.probeBusy then s.mgmt.flags ||| Flag.probeDone.mask else s.mgmt.flags } := by
  rw [cut_spec]
  exact ⟨rfl, rfl⟩

theorem resetPerformance_eq (s : State) : resetPerformance s = { cut s with
    perf := { state := .stopped, stopReason := .reset, cues := [], pausePoint := none, lossTimer := none }
    reader := { s.reader with rollMarks := 0 }
    keys := Vector.ofFn fun k => { (cut s).key k with snapshot := ((cut s).key k).observed }
    mgmt := { s.mgmt with
      flags := 0
      counters := Vector.replicate 14 0
      outbound := s.mgmt.outbound.filter OutFrame.isResponse } } := by
  obtain ⟨hreader, hmgmt⟩ := cut_mgmt_reader s
  have hunfolded : resetPerformance s = { cut s with
      perf := { state := .stopped, stopReason := .reset, cues := [], pausePoint := none, lossTimer := none }
      reader := { (cut s).reader with rollMarks := 0 }
      keys := Vector.ofFn fun k => { (cut s).key k with snapshot := ((cut s).key k).observed }
      mgmt := { (cut s).mgmt with
        flags := 0
        counters := Vector.replicate 14 0
        outbound := (cut s).mgmt.outbound.filter OutFrame.isResponse } } := rfl
  rw [hunfolded, hreader, hmgmt]

theorem resetPerformance_settled (s : State) : (resetPerformance s).settled := by
  rw [resetPerformance_eq]
  exact settled_of_seen nofun fun k => by simp [State.key]

/-- Settles O18. -/
theorem resetPerformanceClearsFlagsAndCounters : Obligations.ResetPerformanceClearsFlagsAndCounters := by
  unfold Obligations.ResetPerformanceClearsFlagsAndCounters
  intro id s hready
  have hexec : exec (.resetPerformance id (.good ())) s =
      request (.resetPerformance id (.good ())) id (fun s => (resetPerformance s, .ok)) s := rfl
  have hnone : noticeFor s.mgmt.flags (resetPerformance s) = [] := by
    have hflags : (resetPerformance s).mgmt.flags = 0 := rfl
    simp [noticeFor, hflags]
  rw [hexec, request_settled hready _ _ _ (resetPerformance_settled s)]
  unfold State.replied
  rw [hnone, resetPerformance_eq]

theorem fullResetOff_eq (s : State) : fullResetOff s =
    offKeys (fun k r => (r.phase = .striking || r.phase = .held) && (s.keyWire k).any fun w => s.boardEnabled w.1) s ++
      offPedals (fun p r => (r.phase = .engaging || r.phase = .down) &&
        (s.pedalWire p).any fun w => s.boardEnabled w.1) s := by
  unfold fullResetOff KeyRec.driven PedalRec.driven
  simp only [Bool.decide_or]

/-- Settles O19. -/
theorem resetFullWaitsForItsResponse : Obligations.ResetFullWaitsForItsResponse := by
  unfold Obligations.ResetFullWaitsForItsResponse
  intro id s
  refine ⟨fun hready hsettled => ?_, fun hnot => ?_, fun hdue => ?_⟩
  · exact request_responds hready (.resetFull id (.good ())) id
      (effect := fun s => ({ s with mgmt := { s.mgmt with fullReset := .responding } }, .ok)) rfl
      (settled_same hsettled rfl rfl rfl rfl) rfl
  · exact congrArg Host.Outcome.next (if_neg hnot)
  · refine (congrArg Host.Outcome.next (if_pos hdue)).trans ?_
    rw [← fullResetOff_eq]
    rfl

/-! ### CLEAR and NOTICES (R172, R174) -/

theorem drainCheck_of_not_drained {s : State} (h : s.perf.state = .draining → s.drained = false) : drainCheck s = s := by
  refine if_neg fun hdone => ?_
  obtain ⟨hstate, hdrained⟩ := Bool.and_eq_true_iff.1 hdone
  rw [h (of_decide_eq_true hstate)] at hdrained
  cases hdrained

/-- Settles O21: outside a drained DRAINING, settling only looks for mismatches. -/
theorem clearClearsTheNamedFlags : Obligations.ClearClearsTheNamedFlags := by
  unfold Obligations.ClearClearsTheNamedFlags
  refine ⟨fun id set s hready hsettled => ?_, fun f s => ?_⟩
  · intro cleared
    have hexec : exec (.clear id (.good set)) s =
        .next (admitRequest (.clear id (.good set)) (answerClear id set) s) := rfl
    have hanswer : answerClear id set s = (settle cleared).replied cleared.mgmt.flags id .ok := respond_eq ..
    have hdrain : drainCheck cleared = cleared := drainCheck_of_not_drained hsettled.1
    have hsettle : settle cleared =
        if ∃ k, (s.key k).phase = .resting ∧ (s.key k).observed ≠ (s.key k).snapshot then raise .touch cleared
        else cleared := by
      unfold settle raiseIf
      dsimp only
      rw [hdrain]
      exact if_congr (anyMismatch_iff cleared) rfl rfl
    rw [hexec, admitRequest_ready hready, hanswer, hsettle]
  · refine ⟨?_, ?_, ?_, ?_, rfl, rfl⟩ <;> cases f <;> rfl

theorem dueNotice_cause (cause : Bool) (s : State) :
    dueNotice cause s = s.nowDue (if cause = true ∧ .notice ∉ s.mgmt.outbound then [.notice] else []) := by
  unfold dueNotice pushFrame State.nowDue
  cases cause <;> by_cases h : OutFrame.notice ∈ s.mgmt.outbound <;> simp [h]

theorem rises_same {old : BitVec 16} {s : State} (h : s.mgmt.flags = old) : rises old s = false := by
  subst h
  have hnone : s.mgmt.flags &&& ~~~s.mgmt.flags = 0 := by
    ext i
    simp
  simp [rises, hnone]

/-- Settles O22: no flag rises; the notice is due for a flag that is set and newly enabled. -/
theorem noticesReplacesTheEnables : Obligations.NoticesReplacesTheEnables := by
  unfold Obligations.NoticesReplacesTheEnables
  intro id set s hready hsettled
  let enabled : State := { s with mgmt := { s.mgmt with enables := set } }
  have hexec : exec (.notices id (.good set)) s =
      .next (admitRequest (.notices id (.good set)) (answerNotices id set) s) := rfl
  have hsettle : settle enabled = enabled := settle_of_settled (settled_same hsettled rfl rfl rfl rfl)
  have hanswer : answerNotices id set s = dueNotice (newlyEnabledSet set s) (pushFrame (.response id .ok []) enabled) := by
    unfold answerNotices
    dsimp only
    rw [hsettle, rises_same (s := enabled) rfl]
    rfl
  rw [hexec, admitRequest_ready hready, hanswer, dueNotice_cause]
  unfold newlyEnabledSet pushFrame State.nowDue
  simp [enabled]

end Sys2Proof.Machine

namespace Sys2Proof.Machine

/-! ### What leaves (R166, R179, R182, R183) -/

theorem exec_responseSend {s : State} {id : Byte} {r : Result} {data : List Byte} {rest : List OutFrame}
    (h : s.mgmt.outbound = .response id r data :: rest) :
    exec .responseSend s = .next (noteFullReset (sendFrame (.response id r data) rest s)) := by
  show execResponseSend s = _
  unfold execResponseSend
  rw [h]

theorem exec_noticeSend {s : State} {rest : List OutFrame} (h : s.mgmt.outbound = .notice :: rest) :
    exec .noticeSend s = .next (sendFrame (noticeNow s) rest s) := by
  show execNoticeSend s = _
  unfold execNoticeSend
  rw [h]

theorem responsesDue_zero_iff (s : State) : s.responsesDue = 0 ↔ ∀ f ∈ s.mgmt.outbound, f = .notice := by
  unfold State.responsesDue
  rw [List.length_eq_zero_iff, List.filter_eq_nil_iff]
  refine forall₂_congr fun f _ => ?_
  cases f <;> simp [OutFrame.isResponse]

theorem isResponse_iff (f : OutFrame) : f.isResponse = true ↔ ∃ id r data, f = .response id r data := by
  cases f <;> simp [OutFrame.isResponse]

theorem noteFullReset_eq (s : State) : noteFullReset s = { s with mgmt := { s.mgmt with
    fullReset := if s.mgmt.fullReset = .responding ∧ s.responsesDue = 0 then .ready else s.mgmt.fullReset } } := by
  unfold noteFullReset
  split <;> rfl

/-- The two bytes of the CRC register, high byte first. -/
theorem crcBytes_f2 (bytes : List Byte) : crcBytes bytes = f2 ((bytes.flatMap fun x => [7, 6, 5, 4, 3, 2, 1, 0].map fun i =>
    x.getLsbD i).foldl (fun (reg : BitVec 16) (bit : Bool) =>
      if reg.getLsbD 15 = bit then reg <<< 1 else (reg <<< 1) ^^^ 0x1021#16) 0xFFFF#16).toNat := by
  have hbytes : ∀ w : BitVec 16, [w.extractLsb' 8 8, w.extractLsb' 0 8] = f2 w.toNat := fun w => by
    rw [f2_eq, f1_eq, f1_eq]
    refine congrArg₂ (fun a b : Byte => [a, b]) ?_ ?_
    · apply BitVec.eq_of_toNat_eq
      simp [BitVec.extractLsb'_toNat, Nat.shiftRight_eq_div_pow]
    · apply BitVec.eq_of_toNat_eq
      simp [BitVec.extractLsb'_toNat]
  rw [crcBytes_eq]
  exact hbytes _

/-- Settles O20. -/
theorem dueFramesLeaveInOrder : Obligations.DueFramesLeaveInOrder := by
  unfold Obligations.DueFramesLeaveInOrder
  refine ⟨fun s => ⟨fun id r data rest h => ?_, fun rest h => exec_noticeSend h, isResponse_iff, rfl, fun h => ?_,
    fun h => ?_⟩, ?_⟩
  · rw [exec_responseSend h, noteFullReset_eq]
    simp only [responsesDue_zero_iff]
    rfl
  · show execResponseSend s = _
    unfold execResponseSend
    split
    · next hout => exact absurd hout (h _ _ _ _)
    · rfl
    · rfl
  · show execNoticeSend s = _
    unfold execNoticeSend
    split
    · next hout => exact absurd hout (h _)
    · rfl
    · rfl
  · intro b1 b2 b6 shifted bits withCrc rollFrame state reason result driven
    have hb1 : ∀ n, f1 n = b1 n := f1_eq
    have hb2 : ∀ n, f2 n = b2 n := fun n => by rw [f2_eq, hb1, hb1]
    have hb6 : ∀ n, f6 n = b6 n := fun n => by
      rw [f6_eq, f4_eq, f3_eq, hb1, hb1, hb1, hb1, hb2, ← List.append_assoc, ← List.append_assoc]
    have hcrc : ∀ body, body ++ crcBytes body = withCrc body := fun body =>
      congrArg (body ++ ·) ((crcBytes_f2 body).trans (hb2 _))
    have hroll : ∀ kind payload, Machine.rollFrame kind payload = rollFrame kind payload := fun kind payload =>
      (congrArg (rollSync :: ·) (hcrc (kind :: f2 payload.length ++ payload))).trans (by rw [hb2]; rfl)
    have hdrive : ∀ c : DriveCmd, c.bytes = driven c c.action.code.1 c.action.code.2 := fun c =>
      (congrArg (actionSync :: ·) (hcrc (f1 (16 * c.board.val + c.action.code.1) ++ f1 c.channel ++ f2 c.action.code.2))).trans
        (by rw [hb1, hb1, hb2]; rfl)
    refine ⟨fun id r data => ?_, fun flags p r time => ?_, fun c w h => ?_, fun c d h => ?_, fun c h => ?_⟩
    · have hresult : r.code = result r := rfl
      refine (hroll 0x20 (id :: f1 r.code ++ data)).trans ?_
      rw [hb1, hresult]
    · have hstate : p.code = state p := rfl
      have hreason : r.code = reason r := rfl
      refine (hroll 0x21 (f2 flags.toNat ++ f1 p.code ++ f1 r.code ++ f6 time)).trans ?_
      rw [hb1, hb1, hb2, hb6, hstate, hreason]
    · rw [hdrive, h]
      rfl
    · rw [hdrive, h]
      rfl
    · rw [hdrive, h]
      rfl

end Sys2Proof.Machine

namespace Sys2Proof.Machine

/-! ### LOOP (R25) -/

theorem setLoop_unlocked {l : LoopRec} {s : State} (h : l.locked = s.clock.loop.locked) :
    setLoop l s = { s with clock := { s.clock with loop := l } } := by
  unfold setLoop
  rw [h, bne_self_eq_false]
  rfl

theorem setLoop_relocked {l : LoopRec} {s : State} (h : l.locked ≠ s.clock.loop.locked) :
    setLoop l s = raise .lockChange { s with clock := { s.clock with loop := l } } := by
  unfold setLoop
  rw [bne_iff_ne.2 h]
  rfl

/-- Settles O24. -/
theorem loopRequestsStartAndStopTheLoop : Obligations.LoopRequestsStartAndStopTheLoop := by
  unfold Obligations.LoopRequestsStartAndStopTheLoop
  intro id s hready hsettled hlocked withLoop
  have hsame : ∀ l, (withLoop l).settled := fun l => settled_same hsettled rfl rfl rfl rfl
  refine ⟨?_, ?_⟩
  · have hexec : exec (.loopOn id (.good ())) s =
        request (.loopOn id (.good ())) id (fun s => (takeLoopOn s, .ok)) s := rfl
    rw [hexec]
    split
    · next hoff =>
      refine request_responds hready _ _ ?_ (hsame _) rfl
      refine congrArg (·, Result.ok) ((if_pos hoff).trans (setLoop_unlocked rfl))
    · next hon => exact request_responds hready _ _ (congrArg (·, Result.ok) (if_neg hon)) hsettled rfl
  · have hexec : exec (.loopOff id (.good ())) s = request (.loopOff id (.good ())) id takeLoopOff s := rfl
    rw [hexec]
    split
    · next hline => exact request_responds hready _ _ (if_pos hline) hsettled rfl
    · next hfree =>
      split
      · next hoff => exact request_responds hready _ _ ((if_neg hfree).trans (if_pos hoff)) hsettled rfl
      · next hon =>
        have htake : takeLoopOff s =
            (setLoop { s.clock.loop with mode := .off, goodRun := 0, badRun := 0, locked := false } s, .ok) :=
          (if_neg hfree).trans (if_neg hon)
        dsimp only
        split
        · next hlock =>
          have hset := setLoop_relocked
            (l := { s.clock.loop with mode := .off, goodRun := 0, badRun := 0, locked := false }) (s := s) (by simp [hlock])
          rw [request_settled hready _ _ _ (by
            rw [htake, hset]
            exact settled_congr hsettled rfl rfl rfl flag_raise_of), htake, hset]
        · next hlock =>
          refine request_responds hready _ _ (htake.trans (congrArg (·, Result.ok) (setLoop_unlocked ?_))) (hsame _) rfl
          exact (Bool.not_eq_true _ ▸ hlock : s.clock.loop.locked = false).symm

/-! ### Stamping a line (R3, R24, R26, R32) -/

/-- A line n stamped with the time t, where the loop becomes l: what changes (R24, R26, R30, R32, R38). -/
structure Stamped (s out : State) (n t : Nat) (l : LoopRec) (gap : Bool) : Prop where
  intake : out.intake =
    { last := some n, history := (s.intake.history ++ [(⟨n, t⟩ : Stamp)]).drop (s.intake.history.length - 3) }
  clock : out.clock = { s.clock with
    base := s.clock.switch.getD s.clock.base, switch := none
    loop := { l with tLoop := if s.clock.switch = some .line then t else l.tLoop } }
  flag : ∀ f, out.flag f = (s.flag f || (f == .lockChange && l.locked != s.clock.loop.locked))
  gapEvents : out.counter .gapEvents =
    if gap then min 65535 (s.counter .gapEvents + 1) else s.counter .gapEvents
  counter : ∀ c, c ≠ .gapEvents → out.counter c = s.counter c
  frame : { out with intake := s.intake, clock := s.clock, mgmt := s.mgmt } = s

theorem switchAt_intake (t : Nat) (l : LoopRec) (s : State) : (switchAt t l s).intake = s.intake := by
  unfold switchAt
  split <;> exact setLoop_intake _ s

theorem recordLine_stamped (s : State) (n t : Nat) (l : LoopRec) (gap : Bool) :
    Stamped s (recordLine n t (switchAt t l (if gap then count .gapEvents s else s))) n t l gap := by
  have hcounted : ∀ u : State, u.intake = s.intake → (recordLine n t (switchAt t l u)).intake =
      { last := some n, history := (s.intake.history ++ [(⟨n, t⟩ : Stamp)]).drop (s.intake.history.length - 3) } :=
    fun u hu => by
      unfold recordLine
      dsimp only
      rw [switchAt_intake, hu, List.length_append]
      rfl
  cases gap with
  | false =>
    obtain ⟨hclock, hflag, hcounter, hframe⟩ := recordLine_switchAt n t l s
    exact ⟨hcounted s rfl, hclock, hflag, hcounter _, fun c _ => hcounter c, hframe⟩
  | true =>
    obtain ⟨hclock, hflag, hcounter, hframe⟩ := recordLine_switchAt n t l (count .gapEvents s)
    refine ⟨hcounted _ rfl, hclock, hflag, (hcounter _).trans ?_, fun c hc => (hcounter c).trans ?_, ?_⟩
    · exact (counter_countBy 1 .gapEvents .gapEvents s).trans (if_pos rfl)
    · exact (counter_countBy 1 .gapEvents c s).trans (if_neg hc)
    · exact congrArg (fun w : State => { w with mgmt := s.mgmt }) hframe

theorem stampLine_first_stamped {s : State} (n : Nat) (h : s.perf.state = .armed ∨ s.intake.history = []) :
    Stamped s (stampLine n s) n s.playTime (s.clock.loop.onFirstLine s.playTime) false := by
  rw [stampLine_first n h]
  exact recordLine_stamped s n _ _ false

theorem stampLine_next_stamped {s : State} (n : Nat) {h : List Stamp} {last : Stamp} (ha : s.perf.state ≠ .armed)
    (hh : s.intake.history = h ++ [last]) :
    let l := s.clock.loop.onLine s.pNom s.playTime (n - last.line - 1)
    Stamped s (stampLine n s) n (s.lineTime last n l) l (8 < n - last.line - 1) := by
  rw [stampLine_next n ha hh]
  dsimp only
  have hif : (if 8 < n - last.line - 1 then count .gapEvents s else s) =
      if decide (8 < n - last.line - 1) = true then count .gapEvents s else s := by
    simp only [decide_eq_true_eq]
  rw [hif]
  exact recordLine_stamped s n _ _ _

theorem onLine_off {l : LoopRec} (h : l.mode = .off) (p arrival g : Nat) : l.onLine p arrival g = l := if_pos h

theorem onLine_seed {l : LoopRec} (h : l.mode ≠ .off) (ht : l.treatment = .seed) (p arrival g : Nat) :
    l.onLine p arrival g = { l with tLoop := arrival, treatment := .measure } := by
  unfold LoopRec.onLine
  rw [if_neg h, ht]

theorem onLine_reseed {l : LoopRec} (h : l.mode ≠ .off) (ht : l.treatment = .reseed) (p arrival g : Nat) :
    l.onLine p arrival g = { l with tLoop := heldTime (max arrival (l.tLoop + l.pEst / 256)), treatment := .measure } := by
  unfold LoopRec.onLine
  rw [if_neg h, ht]

theorem onLine_measure {l : LoopRec} (h : l.mode ≠ .off) (ht : l.treatment = .measure) (p arrival g : Nat) :
    l.onLine p arrival g = measureLine p arrival g l := by
  unfold LoopRec.onLine
  rw [if_neg h, ht]

/-- The last element of a list is what stands at its end. -/
theorem last_unique {α : Type} {l h h' : List α} {x x' : α} (e : l = h ++ [x]) (e' : l = h' ++ [x']) : x' = x := by
  have hlast : l.getLast? = some x := by rw [e, List.getLast?_concat]
  rw [e', List.getLast?_concat] at hlast
  exact Option.some.inj hlast

theorem exists_last {α : Type} {l : List α} (h : l ≠ []) : ∃ i x, l = i ++ [x] :=
  ⟨l.dropLast, l.getLast h, (List.dropLast_append_getLast h).symm⟩

/-- Settles O25: a first line and a later one are stamped in the two ways of `stampLine`. -/
theorem linesAreStampedByTheTimeBase : Obligations.LinesAreStampedByTheTimeBase := by
  unfold Obligations.LinesAreStampedByTheTimeBase
  intro n s first stamped
  by_cases hfirst : first
  · obtain ⟨hintake, hclock, hflag, hgap, hcounter, hframe⟩ := stampLine_first_stamped n hfirst
    have hloop : stamped.clock.loop = { s.clock.loop.onFirstLine s.playTime with
        tLoop := if s.clock.switch = some .line then s.playTime else (s.clock.loop.onFirstLine s.playTime).tLoop } :=
      congrArg LineClock.loop hclock
    have hlocked : stamped.clock.loop.locked = (s.clock.loop.onFirstLine s.playTime).locked := by rw [hloop]
    refine ⟨s.playTime, hintake, fun _ => rfl, fun _ _ hnot => absurd hfirst hnot, fun _ _ hnot => absurd hfirst hnot,
      congrArg LineClock.base hclock, congrArg LineClock.switch hclock, fun hswitch => ?_,
      ⟨fun hoff => ?_, fun _ hon => ?_, fun hnot => absurd hfirst hnot, fun hnot => absurd hfirst hnot⟩,
      fun _ _ hnot => absurd hfirst hnot, fun _ => hgap, fun f => ?_, hcounter, hframe⟩
    · rw [hloop]
      exact if_pos hswitch
    · have hfirstLine : s.clock.loop.onFirstLine s.playTime = s.clock.loop := if_pos hoff
      rw [hloop, hfirstLine]
    · have hfirstLine : s.clock.loop.onFirstLine s.playTime =
          { s.clock.loop with tLoop := s.playTime, treatment := .measure } := if_neg hon
      rw [hloop, hfirstLine]
      simp only [ite_self]
    · rw [hlocked]
      exact hflag f
  · obtain ⟨harmed, hsome⟩ := not_or.1 hfirst
    obtain ⟨h, last, hh⟩ := exists_last hsome
    obtain ⟨hintake, hclock, hflag, hgap, hcounter, hframe⟩ := stampLine_next_stamped n harmed hh
    let l' := s.clock.loop.onLine s.pNom s.playTime (n - last.line - 1)
    let t := s.lineTime last n l'
    have hloop : stamped.clock.loop = { l' with tLoop := if s.clock.switch = some .line then t else l'.tLoop } :=
      congrArg LineClock.loop hclock
    have hlocked : stamped.clock.loop.locked = l'.locked := by rw [hloop]
    refine ⟨t, hintake, fun hf => absurd hf hfirst, fun h' last' _ hh' hbase => ?_, fun h' last' _ hh' hbase hon => ⟨fun htreat => ?_,
      fun htreat => ?_⟩, congrArg LineClock.base hclock, congrArg LineClock.switch hclock, fun hswitch => ?_,
      ⟨fun hoff => ?_, fun hf => absurd hf hfirst, fun _ hon htreat => ?_, fun _ hon htreat => ?_⟩, fun h' last' _ hh' => ?_,
      fun hf => absurd hf hfirst, fun f => ?_, hcounter, hframe⟩
    · rw [last_unique hh hh']
      simp only [t, State.lineTime, hbase]
      rfl
    · rw [last_unique hh hh']
      simp only [t, State.lineTime, hbase, htreat]
      rfl
    · have ht : t = l'.tLoop := by simp only [t, State.lineTime, hbase, htreat, if_false]
      rw [hloop]
      dsimp only
      rw [← ht, ite_self]
    · rw [hloop]
      exact if_pos hswitch
    · have hl : l' = s.clock.loop := onLine_off hoff _ _ _
      rw [hloop, hl]
    · have hl : l' = _ := onLine_seed hon htreat _ _ _
      rw [hloop, hl]
    · have hl : l' = _ := onLine_reseed hon htreat _ _ _
      rw [hloop, hl]
      rfl
    · rw [last_unique hh hh']
      refine hgap.trans ?_
      simp only [decide_eq_true_eq]
    · rw [hlocked]
      exact hflag f

end Sys2Proof.Machine

namespace Sys2Proof.Machine

/-! ### Measured lines (R26 to R29) -/

theorem measureLine_gap {p arrival g : Nat} (h : 8 < g) (l : LoopRec) : measureLine p arrival g l =
    { l with tLoop := heldTime (l.predicted g), lastError := (arrival : Int) - l.predicted g, mode := .acquiring,
             goodRun := 0, badRun := 0, locked := false } := if_pos h

theorem measureLine_acquiring {p arrival g : Nat} (h : g ≤ 8) {l : LoopRec} (hmode : l.mode = .acquiring) :
    measureLine p arrival g l = acquire p (l.predicted g) ((arrival : Int) - l.predicted g) l := by
  refine (if_neg (Nat.not_lt.2 h)).trans ?_
  rw [hmode]

theorem measureLine_tracking {p arrival g : Nat} (h : g ≤ 8) {l : LoopRec} (hmode : l.mode = .tracking) :
    measureLine p arrival g l = track p (l.predicted g) ((arrival : Int) - l.predicted g) l := by
  refine (if_neg (Nat.not_lt.2 h)).trans ?_
  rw [hmode]

section
variable {p pred : Nat} {e : Int} {l : LoopRec}

theorem acquire_locks (h : 16 ≤ if e.natAbs ≤ p / 32 then l.goodRun + 1 else 0) : acquire p pred e l =
    { l with tLoop := stepPhase pred (e / 4), pEst := clampPeriod p (l.pEst + e * 16), lastError := e, mode := .tracking,
             goodRun := 0, badRun := 0 } := if_pos h

theorem acquire_searches (h : ¬16 ≤ if e.natAbs ≤ p / 32 then l.goodRun + 1 else 0) : acquire p pred e l =
    { l with tLoop := stepPhase pred (e / 4), pEst := clampPeriod p (l.pEst + e * 16), lastError := e
             goodRun := if e.natAbs ≤ p / 32 then l.goodRun + 1 else 0 } := if_neg h

theorem track_loses (h : 4 ≤ if p / 16 < e.natAbs then l.badRun + 1 else 0) : track p pred e l =
    { l with tLoop := stepPhase pred (e / 16), pEst := clampPeriod p (l.pEst + e * 2), lastError := e, mode := .acquiring,
             goodRun := 0, badRun := 0, locked := false } := if_pos h

theorem track_holds (h : ¬4 ≤ if p / 16 < e.natAbs then l.badRun + 1 else 0) :
    let good := if e.natAbs ≤ p / 64 then min 32 (l.goodRun + 1) else 0
    track p pred e l =
      { l with tLoop := stepPhase pred (e / 16), pEst := clampPeriod p (l.pEst + e * 2), lastError := e, goodRun := good
               badRun := if p / 16 < e.natAbs then l.badRun + 1 else 0, locked := l.locked || good == 32 } := if_neg h
end

/-- The time of the newest entry of a stamped line's history. -/
theorem Stamped.newest {s out : State} {n t : Nat} {l : LoopRec} {gap : Bool} (h : Stamped s out n t l gap) :
    (out.intake.history.getLast?.map (·.time)).getD 0 = t := by
  have hle : s.intake.history.length - 3 ≤ s.intake.history.length := Nat.sub_le _ _
  rw [h.intake]
  dsimp only
  rw [List.drop_append_of_le_length hle, List.getLast?_concat]
  rfl

/-- Settles O26. -/
theorem measuredLinesMoveTheLoop : Obligations.MeasuredLinesMoveTheLoop := by
  unfold Obligations.MeasuredLinesMoveTheLoop
  intro n h last s harmed hh hon htreat l p g pred e period stamped placed phase out
  have hstamped := stampLine_next_stamped n harmed hh
  dsimp only at hstamped
  have hmeasure : s.clock.loop.onLine s.pNom s.playTime g = measureLine p s.playTime g l := onLine_measure hon htreat _ _ _
  rw [hmeasure] at hstamped
  have hplaced : ∀ x, placed x = if s.clock.switch = some .line then
      s.lineTime last n (measureLine p s.playTime g l) else x := fun x => by
    simp only [placed]
    rw [hstamped.newest]
  have hout : out = { measureLine p s.playTime g l with tLoop := placed (measureLine p s.playTime g l).tLoop } := by
    rw [hplaced]
    exact congrArg LineClock.loop hstamped.clock
  have hfdiv : ∀ d : Nat, Int.fdiv e d = e / d := fun d => Int.fdiv_eq_ediv_of_nonneg e (Int.natCast_nonneg d)
  refine ⟨fun f => ?_, fun hgap => ⟨?_, ?_⟩, fun hnear hmode => ?_, fun hnear hmode => ?_⟩
  · rw [hout]
    exact hstamped.flag f
  · rw [hout, measureLine_gap hgap]
    rfl
  · exact hstamped.gapEvents.trans (if_pos (decide_eq_true hgap))
  · intro good moved
    have hmoved : moved = { l with tLoop := placed (stepPhase pred (e / 4)), pEst := period (e * 16), lastError := e } := by
      simp only [moved, phase]
      rw [show Int.fdiv e 4 = e / 4 from hfdiv 4]
      rfl
    have hline : measureLine p s.playTime g l = acquire p pred e l := measureLine_acquiring hnear hmode
    rw [hout, hline, hmoved]
    by_cases hgood : 16 ≤ good
    · rw [if_pos hgood, acquire_locks hgood]
      rfl
    · rw [if_neg hgood, acquire_searches hgood]
      rfl
  · intro good bad moved
    have hmoved : moved = { l with tLoop := placed (stepPhase pred (e / 16)), pEst := period (e * 2), lastError := e } := by
      simp only [moved, phase]
      rw [show Int.fdiv e 16 = e / 16 from hfdiv 16]
      rfl
    have hline : measureLine p s.playTime g l = track p pred e l := measureLine_tracking hnear hmode
    rw [hout, hline, hmoved]
    by_cases hbad : 4 ≤ bad
    · rw [if_pos hbad, track_loses hbad]
      rfl
    · rw [if_neg hbad, track_holds hbad]
      rfl

end Sys2Proof.Machine

namespace Sys2Proof.Machine

/-! ### Refused lines (R37) -/

theorem exec_scanLine {s : State} (hfull : s.mgmt.fullReset = .none) (hwaiting : s.mgmt.waiting = []) (line : BitVec 24)
    (cells : Vector Byte 128) :
    exec (.scanLine line cells) s = .next ((settle (offerLine line.toNat cells s)).ended s.mgmt.flags) := by
  have hin : s.inboundWaits = false := by
    rw [← Bool.not_eq_true, inboundWaits_iff]
    simp [hfull, hwaiting]
  have htake : exec (.scanLine line cells) s =
      .next (if s.inboundWaits = true then addWaiting (.scanLine line cells) s
        else finishEvent s (offerLine line.toNat cells s)) := rfl
  have hend : finishEvent s (offerLine line.toNat cells s) =
      (settle (offerLine line.toNat cells s)).ended s.mgmt.flags := dueNotice_eq _ _
  rw [htake, hin, hend]
  rfl

theorem count_ended {s : State} (hs : s.settled) (c : Counter) : (settle (count c s)).ended s.mgmt.flags = count c s := by
  have hcount : (count c s).settled := settled_same hs rfl rfl rfl rfl
  rw [settle_of_settled hcount]
  exact ended_same rfl

/-- Settles O27. -/
theorem refusedLinesAreOnlyCounted : Obligations.RefusedLinesAreOnlyCounted := by
  unfold Obligations.RefusedLinesAreOnlyCounted
  intro line cells s hfull hwaiting hsettled
  have hrefused : ∀ c, offerLine line.toNat cells s = count c s →
      exec (.scanLine line cells) s = .next (count c s) := fun c hc => by
    rw [exec_scanLine hfull hwaiting, hc, count_ended hsettled]
  refine ⟨fun hstate => hrefused _ ?_, fun last hstate hlast hold => hrefused _ ?_, fun hstate => hrefused _ ?_,
    fun hstate => hrefused _ ?_⟩
  · unfold offerLine
    rw [hstate]
  · unfold offerLine
    rw [hstate, hlast]
    exact if_pos (decide_eq_true hold)
  · unfold offerLine
    rw [hstate]
  · unfold offerLine
    rw [hstate]

/-! ### Walks over the tracks -/

/-- A walk over the tracks that acts on what the functions in force select, where acting leaves these functions alone, acts
on the selected ones in ascending track number. -/
theorem foldl_tracks {α : Type} (pick : RouteFn → Track → Option α) (act : α → State → State) (step : State → Track → State)
    (hstep : ∀ s t, step s t = match pick s.reader.inForce[t] t with | some a => act a s | none => s)
    (hkeep : ∀ a s, (act a s).reader.inForce = s.reader.inForce) (s : State) :
    allTracks.foldl step s =
      ((List.ofFn fun t : Track => pick s.reader.inForce[t] t).filterMap id).foldl (fun s a => act a s) s := by
  have hlist : ∀ (l : List Track) (u : State), u.reader.inForce = s.reader.inForce → l.foldl step u =
      (l.filterMap fun t => pick s.reader.inForce[t] t).foldl (fun s a => act a s) u := by
    intro l
    induction l with
    | nil => exact fun u _ => rfl
    | cons t l ih =>
      intro u hu
      have ht := hstep u t
      rw [hu] at ht
      rw [List.foldl_cons]
      cases hpick : pick s.reader.inForce[t] t with
      | none =>
        rw [hpick] at ht
        rw [ht, List.filterMap_cons_none (f := fun t => pick s.reader.inForce[t] t) hpick]
        exact ih u hu
      | some a =>
        rw [hpick] at ht
        rw [ht, List.filterMap_cons_some (f := fun t => pick s.reader.inForce[t] t) hpick]
        exact ih _ ((hkeep a u).trans hu)
  have hall : (allTracks.filterMap fun t => pick s.reader.inForce[t] t) =
      (List.ofFn fun t : Track => pick s.reader.inForce[t] t).filterMap id := by
    have hmap : (List.ofFn fun t : Track => pick s.reader.inForce[t] t) =
        (List.ofFn id).map fun t : Track => pick s.reader.inForce[t] t := by
      rw [List.map_ofFn]
      rfl
    unfold allTracks
    rw [hmap, List.filterMap_map]
    rfl
  rw [hlist allTracks s rfl, hall]

theorem handClosings_eq (steps : Vector TrackStep 112) (s : State) : handClosings steps s =
    ((List.ofFn fun u : Track => steps[u].closing.map fun c => (s.reader.inForce[u], c)).filterMap id).foldl
      (fun t c => handClosing c.1 c.2.1 c.2.2 t) s :=
  foldl_tracks (fun f u => steps[u].closing.map fun c => (f, c)) (fun c t => handClosing c.1 c.2.1 c.2.2 t) _
    (fun t u => by cases steps[u].closing <;> rfl) (fun c t => congrArg TrackReader.inForce (HandsOn.handClosing _ _ _ t).reader) s

theorem handOpenings_eq (steps : Vector TrackStep 112) (s : State) : handOpenings steps s =
    ((List.ofFn fun u : Track => steps[u].opening.map fun n => (s.reader.inForce[u], n)).filterMap id).foldl
      (fun t c => handOpening c.1 c.2 t) s :=
  foldl_tracks (fun f u => steps[u].opening.map fun n => (f, n)) (fun c t => handOpening c.1 c.2 t) _
    (fun t u => by cases steps[u].opening <;> rfl) (fun c t => congrArg TrackReader.inForce (HandsOn.handOpening _ _ t).reader) s

theorem handCues_eq (steps : Vector TrackStep 112) (s : State) : handCues steps s =
    ((List.ofFn fun u : Track => if s.reader.inForce[u] = .cue then steps[u].onset else none).filterMap id).foldl
      (fun t m => cueOnset m t) s := by
  refine foldl_tracks (fun f u => if f = .cue then steps[u].onset else none) cueOnset _ (fun t u => ?_)
    (fun m t => congrArg Settings.inForce (settings_cueOnset m t)) s
  cases hforce : t.reader.inForce[u] <;> cases steps[u].onset <;> simp

end Sys2Proof.Machine

namespace Sys2Proof.Machine

/-! ### The line history and the regulators, once a line's onsets are handed on -/

/-- The operation keeps the line history and the Expression Unit. -/
structure KeepsLine (s t : State) : Prop where
  intake : t.intake = s.intake
  expr : t.expr = s.expr

theorem KeepsLine.refl (s : State) : KeepsLine s s := ⟨rfl, rfl⟩

theorem KeepsLine.trans {a b c : State} (h : KeepsLine a b) (g : KeepsLine b c) : KeepsLine a c :=
  ⟨g.1.trans h.1, g.2.trans h.2⟩

theorem HandsOn.keepsLine {s t : State} (h : HandsOn s t) : KeepsLine s t := ⟨h.intake, h.expr⟩

theorem KeepsLine.raiseIf (c f) (s : State) : KeepsLine s (raiseIf c f s) := ⟨raiseIf_intake c f s, raiseIf_expr c f s⟩

theorem KeepsLine.cueOnset (m : Nat) (s : State) : KeepsLine s (cueOnset m s) := by
  have hpoint : ∀ t u, KeepsLine u (setPausePoint t u) := fun t u => by
    unfold setPausePoint
    split <;> exact ⟨rfl, rfl⟩
  unfold Machine.cueOnset
  dsimp only
  split
  · exact ⟨(hpoint _ _).intake, (hpoint _ _).expr⟩
  · exact ⟨rfl, rfl⟩

theorem KeepsLine.foldl {α : Type} (f : State → α → State) (h : ∀ s a, KeepsLine s (f s a)) (l : List α) (s : State) :
    KeepsLine s (l.foldl f s) := by
  induction l generalizing s with
  | nil => exact .refl s
  | cons a l ih => exact (h s a).trans (ih _)

theorem KeepsLine.handCues (v : Vector TrackStep 112) (s : State) : KeepsLine s (handCues v s) := by
  rw [handCues_eq]
  exact KeepsLine.foldl _ (fun t m => .cueOnset m t) _ s

theorem KeepsLine.endOnset (e : Nat) (s : State) : KeepsLine s (endOnset e s) := by
  have hclosed : KeepsLine s (endClosed s) := ⟨by dsimp only [endClosed], by dsimp only [endClosed]⟩
  have hhanded := hclosed.trans (HandsOn.endHanded e s).keepsLine
  rw [endOnset_eq]
  exact ⟨hhanded.intake, hhanded.expr⟩

theorem KeepsLine.handEnd (v : Vector TrackStep 112) (s : State) : KeepsLine s (handEnd v s) := by
  unfold Machine.handEnd
  split
  · exact .refl s
  · exact .endOnset _ s

theorem KeepsLine.enterPaused (s : State) : KeepsLine s (enterPaused s) := by
  rw [enterPaused_spec]
  exact ⟨rfl, rfl⟩

theorem KeepsLine.drainCheck (s : State) : KeepsLine s (drainCheck s) := by
  unfold Machine.drainCheck
  split
  · unfold endDraining
    rw [completeSwitch_eq]
    have hpedals := (HandsOn.changePedals PedalRec.withoutRoll s).keepsLine
    exact ⟨hpedals.intake, hpedals.expr⟩
  · exact .refl s

theorem KeepsLine.settle (s : State) : KeepsLine s (settle s) := (KeepsLine.drainCheck s).trans (.raiseIf _ _ _)

/-! ### The performance state of an accepted line -/

theorem performLine_playing (n : Nat) (s : State) : (performLine n s).perf.state = .playing := by
  unfold performLine checkCues
  split
  · unfold setPausePoint
    split <;> rfl
  · rfl

theorem endOnset_state (e : Nat) (s : State) : (endOnset e s).perf.state = .draining := rfl

theorem settle_state_of_not_draining {s : State} (h : s.perf.state ≠ .draining) : (settle s).perf = s.perf := by
  unfold settle
  dsimp only
  rw [drainCheck_of_not_drained fun hstate => absurd hstate h, raiseIf_perf]

theorem settle_state_of_draining {s : State} (h : s.perf.state = .draining) :
    (settle s).perf.state = .draining ∨ (settle s).perf.state = .stopped := by
  have hcheck : (drainCheck s).perf.state = .draining ∨ (drainCheck s).perf.state = .stopped := by
    unfold drainCheck
    split
    · exact .inr (endDraining_state s)
    · exact .inl h
  unfold settle
  dsimp only
  rwa [raiseIf_perf]

theorem endLines_eq_nil_iff (steps : Vector TrackStep 112) (s : State) :
    endLines steps s = [] ↔ ¬∃ u : Track, s.reader.inForce[u] = .endMark ∧ steps[u].onset ≠ none := by
  unfold endLines
  rw [List.filterMap_eq_nil_iff]
  have hmem : ∀ u, u ∈ allTracks := fun u => by
    unfold allTracks
    exact List.mem_ofFn.2 ⟨u, rfl⟩
  constructor
  · rintro h ⟨u, hend, honset⟩
    have hu := h u (hmem u)
    rw [if_pos hend] at hu
    exact honset hu
  · intro h u _
    split
    · next hend => exact not_not.1 fun honset => h ⟨u, hend, honset⟩
    · rfl

theorem handEnd_none {steps : Vector TrackStep 112} {s : State} (h : endLines steps s = []) : handEnd steps s = s := by
  unfold handEnd
  rw [h]

theorem handEnd_some {steps : Vector TrackStep 112} {s : State} (h : endLines steps s ≠ []) :
    ∃ e, handEnd steps s = endOnset e s := by
  unfold handEnd
  split
  · next hnil => exact absurd hnil h
  · exact ⟨_, rfl⟩

theorem offerLine_accepts {n : Nat} {s : State} (cells : Vector Byte 128)
    (h : s.perf.state = .armed ∨ (s.perf.state = .playing ∧ ∀ last, s.intake.last = some last → last < n)) :
    offerLine n cells s = acceptLine n cells s := by
  unfold offerLine
  rcases h with h | ⟨h, hnew⟩
  · rw [h]
  · have hnot : s.intake.last.any (n ≤ ·) = false := by
      cases hlast : s.intake.last with
      | none => rfl
      | some last => exact decide_eq_false (Nat.not_le.2 (hnew last hlast))
    rw [h, hnot]
    rfl

end Sys2Proof.Machine

namespace Sys2Proof.Machine

/-! ### Accepted lines (R37, R38, R51) -/

section
variable (n : Nat) (cells : Vector Byte 128) (s : State)

/-- The state of an accepted line up to its regulators (R38, R51). -/
def shadedLine : State :=
  stepRegulators (alignLine cells (setDetectors (trackSteps n cells (performLine n (stampLine n s)))
    (performLine n (stampLine n s))))

/-- An accepted line before its END onsets. -/
def cuedLine : State :=
  handCues (trackSteps n cells (performLine n (stampLine n s)))
    (handOpenings (trackSteps n cells (performLine n (stampLine n s)))
      (handClosings (trackSteps n cells (performLine n (stampLine n s))) (shadedLine n cells s)))

theorem acceptLine_eq : acceptLine n cells s =
    reachPause (handEnd (trackSteps n cells (performLine n (stampLine n s))) (cuedLine n cells s)) := rfl

theorem setDetectors_perf_intake (v : Vector TrackStep 112) :
    (setDetectors v s).perf = s.perf ∧ (setDetectors v s).intake = s.intake := by
  dsimp only [setDetectors]
  exact ⟨rfl, rfl⟩

theorem stepRegulators_perf_intake :
    (stepRegulators (alignLine cells s)).perf = s.perf ∧ (stepRegulators (alignLine cells s)).intake = s.intake := by
  have halign : (alignLine cells s).intake = s.intake := by
    unfold alignLine
    split
    · split
      · rfl
      · exact raiseIf_intake _ _ _
    · rfl
  exact ⟨(alignLine_perf_clock cells s).1, halign⟩

theorem shadedLine_state : (shadedLine n cells s).perf.state = .playing := by
  have hperf : (shadedLine n cells s).perf = (performLine n (stampLine n s)).perf := by
    unfold shadedLine
    rw [(stepRegulators_perf_intake cells _).1, (setDetectors_perf_intake _ _).1]
  rw [hperf]
  exact performLine_playing n _

theorem shadedLine_intake : (shadedLine n cells s).intake = (stampLine n s).intake := by
  have hperform : ∀ u, (performLine n u).intake = u.intake := fun u => by
    unfold performLine checkCues
    split
    · unfold setPausePoint
      split <;> rfl
    · rfl
  unfold shadedLine
  rw [(stepRegulators_perf_intake cells _).2, (setDetectors_perf_intake _ _).2, hperform]

theorem KeepsLine.cuedLine : KeepsLine (shadedLine n cells s) (cuedLine n cells s) :=
  ((HandsOn.handClosings _ _).trans (.handOpenings _ _)).keepsLine.trans (.handCues _ _)

theorem cuedLine_state : (cuedLine n cells s).perf.state = .playing := by
  unfold Machine.cuedLine
  rw [handCues_state, ((HandsOn.handClosings _ _).trans (.handOpenings _ _)).perf]
  exact shadedLine_state n cells s

theorem cuedLine_inForce : (cuedLine n cells s).reader.inForce = s.reader.inForce := by
  have hsettings : (cuedLine n cells s).settings = s.settings := by
    simp [Machine.cuedLine, shadedLine]
  exact congrArg Settings.inForce hsettings

theorem settle_acceptLine_line : KeepsLine (shadedLine n cells s) (settle (acceptLine n cells s)) := by
  have hreach : ∀ u, KeepsLine u (reachPause u) := fun u => by
    unfold reachPause
    split
    · exact .enterPaused u
    · exact .refl u
  exact (((KeepsLine.cuedLine n cells s).trans (.handEnd _ _)).trans (hreach _)).trans (.settle _)

theorem reachPause_playing {u : State} (h : u.perf.state = .playing) :
    (reachPause u).perf.state = .playing ∨ (reachPause u).perf.state = .paused := by
  unfold reachPause
  split
  · refine .inr ?_
    rw [enterPaused_spec]
  · exact .inl h

theorem reachPause_draining {u : State} (h : u.perf.state = .draining) : reachPause u = u := by
  refine if_neg fun hreached => ?_
  rw [pauseReached_iff, h] at hreached
  cases hreached.1

/-- Without an END onset an accepted line leaves PLAYING or PAUSED. -/
theorem acceptLine_goes_on (h : endLines (trackSteps n cells (performLine n (stampLine n s))) (cuedLine n cells s) = []) :
    (settle (acceptLine n cells s)).perf.state = .playing ∨ (settle (acceptLine n cells s)).perf.state = .paused := by
  rw [acceptLine_eq, handEnd_none h]
  have hstate := reachPause_playing (cuedLine_state n cells s)
  have hnot : (reachPause (cuedLine n cells s)).perf.state ≠ .draining := by
    rcases hstate with h | h <;> rw [h] <;> nofun
  rw [settle_state_of_not_draining hnot]
  exact hstate

/-- With one it drains, and may be drained at once. -/
theorem acceptLine_drains (h : endLines (trackSteps n cells (performLine n (stampLine n s))) (cuedLine n cells s) ≠ []) :
    (settle (acceptLine n cells s)).perf.state = .draining ∨ (settle (acceptLine n cells s)).perf.state = .stopped := by
  obtain ⟨e, he⟩ := handEnd_some h
  rw [acceptLine_eq, he, reachPause_draining (endOnset_state e _)]
  exact settle_state_of_draining (endOnset_state e _)
end

/-- Settles O28: `acceptLine` is the order of R38 and R51; each step keeps what it does not name. -/
theorem acceptedLinesAreHandedOn : Obligations.AcceptedLinesAreHandedOn := by
  unfold Obligations.AcceptedLinesAreHandedOn
  refine ⟨?_, fun steps s => ⟨?_, ?_⟩⟩
  · intro line cells s hfull hwaiting haccepted n timed steps shaded read t
    have hexec := exec_scanLine hfull hwaiting line cells
    rw [offerLine_accepts cells haccepted] at hexec
    have hline : KeepsLine shaded t := settle_acceptLine_line n cells s
    have hintake : t.intake = (stampLine n s).intake := hline.intake.trans (shadedLine_intake n cells s)
    have hsettings : t.settings = s.settings := by
      have hkept : (settle (acceptLine n cells s)).settings = s.settings := by simp
      exact hkept
    have hlast : (stampLine n s).intake.last = some n := by
      obtain ⟨_, hstamp, -⟩ := linesAreStampedByTheTimeBase n s
      exact congrArg RollIntake.last hstamp
    have hends := endLines_eq_nil_iff steps (cuedLine n cells s)
    rw [cuedLine_inForce] at hends
    refine ⟨pauseReached_iff read, hexec, hintake, hintake ▸ hlast, hline.expr,
      ⟨fun hgoes => acceptLine_goes_on n cells s (hends.2 hgoes), fun hended => acceptLine_drains n cells s fun hnil =>
        hends.1 hnil hended⟩, congrArg Settings.route hsettings, congrArg Settings.inForce hsettings,
      congrArg Settings.detect hsettings, congrArg Settings.timing hsettings, congrArg Settings.shading hsettings,
      congrArg Settings.curve hsettings, congrArg Settings.voicing hsettings, congrArg Settings.calib hsettings,
      congrArg Settings.adaptParam hsettings⟩
  · have hclosing : (fun (t : State) (c : RouteFn × Nat × Nat) => handClosing c.1 c.2.1 c.2.2 t) =
        fun t c => match c.1 with
          | .note k => requestRelease k c.2.1 c.2.2 t
          | .pedal p => requestPedalUp p c.2.1 c.2.2 t
          | _ => t := by
      funext t ⟨f, c⟩
      cases f <;> rfl
    have hhanded := handClosings_eq steps s
    rw [hclosing] at hhanded
    exact hhanded
  · have hopening : (fun (t : State) (c : RouteFn × Nat) => handOpening c.1 c.2 t) =
        fun t c => match c.1 with
          | .note k => requestStrike k c.2 t
          | .pedal p => requestPedalDown p c.2 t
          | _ => t := by
      funext t ⟨f, c⟩
      cases f <;> rfl
    have hhanded := handOpenings_eq steps s
    rw [hopening] at hhanded
    exact hhanded

end Sys2Proof.Machine

namespace Sys2Proof.Machine

/-! ### The cues of an accepted line (R9, R10) -/

theorem setPausePoint_eq (t : Nat) (s : State) :
    setPausePoint t s = { s with perf := { s.perf with pausePoint := some (s.perf.pausePoint.getD t) } } := by
  obtain ⟨perf, _, _, _, _, _, _, _, _, _, _, _, _, _⟩ := s
  obtain ⟨_, _, _, pausePoint, _⟩ := perf
  cases pausePoint <;> rfl

theorem filter_cues_of_none {cues : List Nat} {n : Nat} (h : ¬∃ c ∈ cues, c ≤ n) : cues.filter (n < ·) = cues :=
  List.filter_eq_self.2 fun c hc => decide_eq_true (Nat.not_le.1 fun hle => h ⟨c, hc, hle⟩)

section
variable (n : Nat) (s : State)

/-- The state of an accepted line before its cue check (R3, R6). -/
def timedLine : State := startLossTimer { s with perf := { s.perf with state := .playing } }

theorem performLine_reached (h : ∃ c ∈ s.perf.cues, c ≤ n) : performLine n s = { raise .cue (timedLine s) with
    perf := { (timedLine s).perf with
      cues := s.perf.cues.filter (n < ·), pausePoint := some (s.perf.pausePoint.getD (s.strikeTime n)) } } := by
  have hany : s.perf.cues.any (· ≤ n) = true := by simpa using h
  exact (if_pos hany).trans (setPausePoint_eq _ _)

theorem performLine_none (h : ¬∃ c ∈ s.perf.cues, c ≤ n) : performLine n s = timedLine s := by
  have hany : ¬s.perf.cues.any (· ≤ n) = true := by simpa using h
  exact if_neg hany
end

theorem cueOnset_pauses {m : Nat} {s : State} (hpausing : s.rollMarkPausing = true) (hstate : s.perf.state = .playing) :
    cueOnset m s = { s with
      reader := { s.reader with rollMarks := min 65535 (s.reader.rollMarks + 1) }
      perf := { s.perf with pausePoint := some (s.perf.pausePoint.getD (s.strikeTime m)) }
      mgmt := { s.mgmt with flags := s.mgmt.flags ||| Flag.cue.mask } } := by
  unfold cueOnset
  rw [hpausing, hstate]
  exact setPausePoint_eq _ _

theorem rollMarkPausing_iff (s : State) : s.rollMarkPausing = true ↔ s.clock.timing[8] = 1 := by
  unfold State.rollMarkPausing
  exact beq_iff_eq

/-- Settles O29. -/
theorem acceptedLinesReachTheirCues : Obligations.AcceptedLinesReachTheirCues := by
  unfold Obligations.AcceptedLinesReachTheirCues
  refine ⟨fun line s => ⟨fun before st after hhistory hline hbefore => timeOf_of_mem hhistory hline hbefore, rfl⟩,
    fun n s => ?_, fun m s => ?_, fun openAt closeAt confirm n sample m mask d => ?_, handCues_eq⟩
  · intro reached t
    by_cases h : reached
    · have ht : t = _ := performLine_reached n s h
      refine ⟨performLine_playing n s, ?_, ?_, ?_, fun _ => ⟨?_, ?_⟩, fun hnot => absurd h hnot, ?_⟩
      all_goals rw [ht]
      · rfl
      · rfl
      · exact (flag_raise _ _ _).trans (by simp)
      · rfl
    · have ht : t = _ := performLine_none n s h
      refine ⟨performLine_playing n s, ?_, ?_, ?_, fun hyes => absurd hyes h, fun _ => ⟨?_, ?_⟩, ?_⟩
      all_goals rw [ht]
      · rfl
      · exact (filter_cues_of_none h).symm
      · rfl
      · rfl
      · rfl
      · rfl
  · intro counted
    refine ⟨fun hpausing hstate => cueOnset_pauses ((rollMarkPausing_iff s).2 hpausing) hstate, fun h => if_neg fun hboth => ?_⟩
    obtain ⟨hpausing, hstate⟩ := Bool.and_eq_true_iff.1 hboth
    rcases h with h | h
    · exact h ((rollMarkPausing_iff s).1 hpausing)
    · exact h (of_decide_eq_true hstate)
  · have honset : (trackStep openAt closeAt confirm n sample ⟨.cue, mask⟩ d).onset =
        if (!d.raw && !mask) = true then (d.sense openAt closeAt confirm n sample).2 else none := rfl
    rw [honset]
    cases d.raw <;> cases mask <;> simp

end Sys2Proof.Machine

namespace Sys2Proof.Machine

/-! ### Detectors (R44 to R46) -/

/-- Whether a sample agrees with a change of a detector's raw state (R45). -/
def Detector.agrees (d : Detector) (openAt closeAt sample : Nat) : Prop :=
  (d.raw = false ∧ openAt ≤ sample) ∨ (d.raw = true ∧ sample ≤ closeAt)

theorem agrees_iff (d : Detector) (openAt closeAt sample : Nat) :
    (if d.raw = true then decide (sample ≤ closeAt) else decide (openAt ≤ sample)) = true ↔
      d.agrees openAt closeAt sample := by
  unfold Detector.agrees
  cases d.raw <;> simp

section
variable {d : Detector} {openAt closeAt confirm n sample : Nat}

theorem sense_confirms (h : d.agrees openAt closeAt sample) (hrun : confirm ≤ d.run + 1) :
    d.sense openAt closeAt confirm n sample =
      ({ d with raw := !d.raw, run := 0, runFirst := none }, some (if d.run = 0 then n else d.runFirst.getD n)) :=
  (if_pos ((agrees_iff ..).2 h)).trans (if_pos hrun)

theorem sense_extends (h : d.agrees openAt closeAt sample) (hrun : d.run + 1 < confirm) :
    d.sense openAt closeAt confirm n sample =
      ({ d with run := d.run + 1, runFirst := some (if d.run = 0 then n else d.runFirst.getD n) }, none) :=
  (if_pos ((agrees_iff ..).2 h)).trans (if_neg (Nat.not_le.2 hrun))

theorem sense_clears (h : ¬d.agrees openAt closeAt sample) :
    d.sense openAt closeAt confirm n sample = ({ d with run := 0, runFirst := none }, none) :=
  if_neg (mt (agrees_iff ..).1 h)
end

theorem trackSample_inside {base : Nat} {shift : Int} (cells : Vector Byte 128) {u : Track} {i : Fin 128}
    (h : base + u.val + shift = (i.val : Int)) : trackSample base shift cells u = cells[i].toNat := by
  unfold trackSample
  dsimp only
  rw [h, if_pos (Int.natCast_nonneg _), Int.toNat_natCast]
  simp

theorem trackSample_outside {base : Nat} {shift : Int} (cells : Vector Byte 128) {u : Track}
    (h : (base + u.val + shift : Int) < 0 ∨ 127 < (base + u.val + shift : Int)) : trackSample base shift cells u = 0 := by
  unfold trackSample
  dsimp only
  split
  · next hpos =>
    have hbeyond : 128 ≤ (base + u.val + shift : Int).toNat := by omega
    rw [Vector.getElem?_eq_none hbeyond]
    rfl
  · rfl

/-! ### Alignment (R42, R43) -/

section
variable (cells : Vector Byte 128) (s : State)

/-- A line's alignment puts shift and runs in place. -/
def placedShift (shift : Int) (up down : Nat) : State :=
  { s with reader := { s.reader with shift := shift, upRun := up, downRun := down } }

/-- A move of the shift clears the runs, and flags a limit that it reaches. -/
def movedShift (shift : Int) : State :=
  if shift = 8 ∨ shift = -8 then raise .alignLimit (placedShift s shift 0 0) else placedShift s shift 0 0

theorem alignLine_off (h : s.reader.detect[4] ≠ 1) : alignLine cells s = s := if_neg h

theorem alignLine_blank (h : s.reader.detect[4] = 1) (hnone : paperEdges s.reader.detect[6] cells = none) :
    alignLine cells s = placedShift s s.reader.shift 0 0 := by
  refine (if_pos h).trans ?_
  rw [hnone]
  rfl

/-- What a measured line makes of the reader. -/
def alignedState (r : TrackReader) : State :=
  raiseIf (r.shift != s.reader.shift && (r.shift == 8 || r.shift == -8)) .alignLimit { s with reader := r }

theorem alignLine_edges (h : s.reader.detect[4] = 1) {left right : Nat}
    (hedges : paperEdges s.reader.detect[6] cells = some (left, right)) : alignLine cells s =
      alignedState s (s.reader.aligned s.reader.detect[5] (measuredShift s.reader.detect[7] left right)) := by
  refine (if_pos h).trans ?_
  rw [hedges]
  rfl

theorem alignedState_still {r : TrackReader} (h : r.shift = s.reader.shift) : alignedState s r = { s with reader := r } := by
  unfold alignedState
  rw [h, bne_self_eq_false]
  rfl

theorem alignedState_moved {r : TrackReader} (h : r.shift ≠ s.reader.shift) : alignedState s r =
    if r.shift = 8 ∨ r.shift = -8 then raise .alignLimit { s with reader := r } else { s with reader := r } := by
  unfold alignedState raiseIf
  rw [bne_iff_ne.2 h]
  simp

variable {measured : Int}

theorem aligned_up (h : s.reader.shift < measured) : alignedState s (s.reader.aligned s.reader.detect[5] measured) =
    if s.reader.detect[5] ≤ s.reader.upRun + 1 then movedShift s (s.reader.shift + 1)
    else placedShift s s.reader.shift (s.reader.upRun + 1) 0 := by
  have haligned : s.reader.aligned s.reader.detect[5] measured = if s.reader.detect[5] ≤ s.reader.upRun + 1 then
      { s.reader with shift := s.reader.shift + 1, upRun := 0, downRun := 0 }
      else { s.reader with upRun := s.reader.upRun + 1, downRun := 0 } := if_pos h
  rw [haligned]
  split
  · exact alignedState_moved s (by simp)
  · exact alignedState_still s rfl

theorem aligned_down (h : measured < s.reader.shift) : alignedState s (s.reader.aligned s.reader.detect[5] measured) =
    if s.reader.detect[5] ≤ s.reader.downRun + 1 then movedShift s (s.reader.shift - 1)
    else placedShift s s.reader.shift 0 (s.reader.downRun + 1) := by
  have haligned : s.reader.aligned s.reader.detect[5] measured = if s.reader.detect[5] ≤ s.reader.downRun + 1 then
      { s.reader with shift := s.reader.shift - 1, upRun := 0, downRun := 0 }
      else { s.reader with upRun := 0, downRun := s.reader.downRun + 1 } := (if_neg (Int.not_lt.2 h.le)).trans (if_pos h)
  rw [haligned]
  split
  · exact alignedState_moved s (by simp)
  · exact alignedState_still s rfl

theorem aligned_level (h : measured = s.reader.shift) : alignedState s (s.reader.aligned s.reader.detect[5] measured) =
    placedShift s s.reader.shift 0 0 := by
  have haligned : s.reader.aligned s.reader.detect[5] measured = { s.reader with upRun := 0, downRun := 0 } :=
    (if_neg (Int.not_lt.2 h.le)).trans (if_neg (Int.not_lt.2 h.ge))
  rw [haligned]
  exact alignedState_still s rfl

theorem movedShift_shift (shift : Int) : (movedShift s shift).reader.shift = shift := by
  unfold movedShift
  split <;> rfl

/-- The measured shift lies within -8 to 8 (R42). -/
theorem measuredShift_range (refSum left right : Nat) :
    -8 ≤ measuredShift refSum left right ∧ measuredShift refSum left right ≤ 8 := by
  unfold measuredShift clampInt
  omega

theorem alignLine_shift_range (hlow : -8 ≤ s.reader.shift) (hhigh : s.reader.shift ≤ 8) :
    -8 ≤ (alignLine cells s).reader.shift ∧ (alignLine cells s).reader.shift ≤ 8 := by
  by_cases hon : s.reader.detect[4] = 1
  · cases hedges : paperEdges s.reader.detect[6] cells with
    | none =>
      rw [alignLine_blank cells s hon hedges]
      exact ⟨hlow, hhigh⟩
    | some edges =>
      obtain ⟨left, right⟩ := edges
      obtain ⟨hmin, hmax⟩ := measuredShift_range s.reader.detect[7] left right
      rw [alignLine_edges cells s hon hedges]
      generalize measuredShift s.reader.detect[7] left right = measured at hmin hmax
      rcases lt_trichotomy s.reader.shift measured with h | h | h
      · rw [aligned_up s h]
        split
        · rw [movedShift_shift]; omega
        · exact ⟨hlow, hhigh⟩
      · rw [aligned_level s h.symm]
        exact ⟨hlow, hhigh⟩
      · rw [aligned_down s h]
        split
        · rw [movedShift_shift]; omega
        · exact ⟨hlow, hhigh⟩
  · rw [alignLine_off cells s hon]
    exact ⟨hlow, hhigh⟩
end

/-- Settles O30. -/
theorem detectorsConfirmRuns : Obligations.DetectorsConfirmRuns := by
  unfold Obligations.DetectorsConfirmRuns
  refine ⟨fun d openAt closeAt confirm n sample => ⟨sense_confirms, sense_extends, sense_clears⟩,
    fun base shift cells u => ⟨fun i h => trackSample_inside cells h, trackSample_outside cells⟩, fun cells s => ?_⟩
  intro r hold dark placed moved out
  refine ⟨alignLine_off cells s, fun hon hnone => alignLine_blank cells s hon (paperEdges_none hnone),
    fun left right hon hleft hright hall => ?_, alignLine_shift_range cells s⟩
  intro measured
  have hout : out = alignedState s (s.reader.aligned hold measured) :=
    alignLine_edges cells s hon (paperEdges_some hleft hright hall)
  rw [hout]
  exact ⟨aligned_up s, aligned_down s, aligned_level s⟩

end Sys2Proof.Machine

namespace Sys2Proof.Machine

/-! ### Level channels (R49, R53) -/

section
variable {n : Nat} {mask before : Bool} {d : Detector} {confirmed : Option Nat}

theorem levelStep_same (h : (d.raw && !mask) = d.eff) : levelStep n mask d confirmed before = ⟨d, none, none, none⟩ := if_pos h

/-- The line to which a change of the effective state is attributed (R49). -/
def levelLine (n : Nat) (mask before : Bool) (confirmed : Option Nat) : Nat :=
  if mask || before then n else confirmed.getD n

theorem levelStep_opens (heff : d.eff = false) (h : (d.raw && !mask) = true) : levelStep n mask d confirmed before =
    ⟨{ d with eff := true, openLine := some (levelLine n mask before confirmed) },
      some (levelLine n mask before confirmed), none, none⟩ := by
  unfold levelStep
  rw [h, heff]
  rfl

theorem levelStep_closes (heff : d.eff = true) (h : (d.raw && !mask) = false) : levelStep n mask d confirmed before =
    ⟨{ d with eff := false, openLine := none }, none,
      some (levelLine n mask before confirmed, d.openLine.getD (levelLine n mask before confirmed)), none⟩ := by
  unfold levelStep
  rw [h, heff]
  rfl

theorem levelLine_eq (n : Nat) (mask before : Bool) (confirmed : Option Nat) :
    levelLine n mask before confirmed = if mask = false ∧ before = false then confirmed.getD n else n := by
  unfold levelLine
  cases mask <;> cases before <;> rfl

/-- The detector's part in a level channel: the effective state is the raw state unmasked. -/
theorem levelStep_spec (n : Nat) (mask before : Bool) (d : Detector) (confirmed : Option Nat) :
    let x := levelStep n mask d confirmed before
    x.det.eff = (d.raw && !mask) ∧ x.onset = none ∧ x.det.raw = d.raw ∧ x.det.maskLast = d.maskLast := by
  cases heff : d.eff <;> cases h : d.raw && !mask
  · rw [levelStep_same (h.trans heff.symm)]
    exact ⟨heff, rfl, rfl, rfl⟩
  · rw [levelStep_opens heff h]
    exact ⟨rfl, rfl, rfl, rfl⟩
  · rw [levelStep_closes heff h]
    exact ⟨rfl, rfl, rfl, rfl⟩
  · rw [levelStep_same (h.trans heff.symm)]
    exact ⟨heff, rfl, rfl, rfl⟩
end

theorem isLevel_iff (f : RouteFn) :
    f.isLevel = true ↔ (∃ k, f = .note k) ∨ (∃ p, f = .pedal p) ∨ ∃ h b, f = .expr h b := by
  cases f <;> simp [RouteFn.isLevel]

section
variable {openAt closeAt confirm n sample : Nat} {e : RouteEntry} {d : Detector}

theorem trackStep_level (h : e.function.isLevel = true) : trackStep openAt closeAt confirm n sample e d =
    levelStep n e.mask { (d.sense openAt closeAt confirm n sample).1 with maskLast := e.mask }
      (d.sense openAt closeAt confirm n sample).2 d.maskLast := by
  obtain ⟨f, mask⟩ := e
  cases f with
  | note k => rfl
  | pedal p => rfl
  | expr h b => rfl
  | unused => cases h
  | endMark => cases h
  | cue => cases h

theorem trackStep_mark (h : e.function = .endMark ∨ e.function = .cue) : trackStep openAt closeAt confirm n sample e d =
    ⟨{ (d.sense openAt closeAt confirm n sample).1 with maskLast := e.mask }, none, none,
      if !d.raw && !e.mask then (d.sense openAt closeAt confirm n sample).2 else none⟩ := by
  obtain ⟨f, mask⟩ := e
  rcases h with h | h <;> cases h <;> rfl

theorem trackStep_unused (h : e.function = .unused) : trackStep openAt closeAt confirm n sample e d =
    ⟨{ (d.sense openAt closeAt confirm n sample).1 with maskLast := e.mask }, none, none, none⟩ := by
  obtain ⟨f, mask⟩ := e
  cases h
  rfl

theorem not_level_cases (h : e.function.isLevel = false) :
    (e.function = .endMark ∨ e.function = .cue) ∨ e.function = .unused := by
  obtain ⟨f, mask⟩ := e
  cases f <;> simp_all [RouteFn.isLevel]
end

/-- Settles O31. -/
theorem levelChannelsFollowRawStateAndMask : Obligations.LevelChannelsFollowRawStateAndMask := by
  unfold Obligations.LevelChannelsFollowRawStateAndMask
  refine ⟨fun n mask before d confirmed => ?_, fun openAt closeAt confirm n sample e d => ?_, fun n cells u s => ?_,
    fun steps s => rfl⟩
  · intro x line
    obtain ⟨heff, honset, hraw, -⟩ := levelStep_spec n mask before d confirmed
    have hline : line = levelLine n mask before confirmed := (levelLine_eq ..).symm
    refine ⟨heff, honset, hraw, fun hsame => ?_, fun hshut hopen => ?_, fun hopen hshut => ?_⟩
    · have hx : x = _ := levelStep_same (heff.symm.trans hsame.symm)
      rw [hx]
      exact ⟨rfl, rfl, rfl⟩
    · have hx : x = _ := levelStep_opens hshut (heff.symm.trans hopen)
      rw [hx, hline]
      exact ⟨rfl, rfl, rfl⟩
    · have hx : x = _ := levelStep_closes hopen (heff.symm.trans hshut)
      rw [hx, hline]
      exact ⟨rfl, rfl, rfl⟩
  · intro sensed marked x level
    have hlevel := isLevel_iff e.function
    refine ⟨hlevel, ?_, fun h => trackStep_level (hlevel.2 h), fun h => ?_, fun h => ?_, fun h => ?_⟩
    · cases hkind : e.function.isLevel with
      | true =>
        have hx : x = _ := trackStep_level hkind
        rw [hx]
        exact (levelStep_spec n e.mask d.maskLast marked sensed.2).2.2.2
      | false =>
        rcases not_level_cases hkind with h | h
        · have hx : x = _ := trackStep_mark h
          rw [hx]
        · have hx : x = _ := trackStep_unused h
          rw [hx]
    · rcases not_level_cases (Bool.not_eq_true _ ▸ mt hlevel.1 h) with h | h
      · have hx : x = _ := trackStep_mark h
        rw [hx]
        exact ⟨rfl, rfl, rfl⟩
      · have hx : x = _ := trackStep_unused h
        rw [hx]
        exact ⟨rfl, rfl, rfl⟩
    · have hx : x = _ := trackStep_mark h
      rw [hx]
      simp only [Bool.and_eq_true, Bool.not_eq_true']
      rfl
    · have hx : x = _ := trackStep_unused h
      rw [hx]
  · simp [trackSteps]

end Sys2Proof.Machine

namespace Sys2Proof.Machine

/-! ### Levels and intensities (R56 to R69) -/

theorem moveLevel_up {level target : Nat} (h : level ≤ target) (rate : Nat) :
    moveLevel level target rate = min target (level + rate) := by
  unfold moveLevel
  split_ifs <;> omega

theorem moveLevel_down {level target : Nat} (h : target ≤ level) (rate : Nat) :
    moveLevel level target rate = max target (level - rate) := by
  unfold moveLevel
  split_ifs <;> omega

section
variable (s : State)

theorem bitValue_channelOpen (f : RouteFn) (weight : Nat)
    [Decidable (∃ u : Track, s.reader.inForce[u] = f ∧ s.reader.detectors[u].eff = true)] :
    bitValue (s.channelOpen f) weight =
      if ∃ u : Track, s.reader.inForce[u] = f ∧ s.reader.detectors[u].eff = true then weight else 0 :=
  if_congr (channelOpen_iff f s) rfl rfl

theorem shadingCode_lt (h : Half) : s.shadingCode h < 8 := by
  have hbit : ∀ b w, bitValue b w ≤ w := fun b w => by cases b <;> simp [bitValue]
  have h1 := hbit (s.channelOpen (.expr h .int1)) 1
  have h2 := hbit (s.channelOpen (.expr h .int2)) 2
  have h4 := hbit (s.channelOpen (.expr h .int4)) 4
  unfold State.shadingCode
  omega

theorem shadingTarget_eq (h : Half) {code : Nat} (hcode : code < 8) :
    ∃ i : Fin 22, i.val = (match h with | .bass => 0 | .treble => 8) + code ∧ s.shadingTarget h code = s.expr.shading[i] := by
  have hentry : ∀ base : Nat, ∀ hlt : base + code < 22, (s.expr.shading[base + code]?).getD 0 = s.expr.shading[base + code] :=
    fun base hlt => by
      rw [Vector.getElem?_eq_getElem hlt]
      rfl
  cases h with
  | bass => exact ⟨⟨0 + code, by omega⟩, rfl, hentry 0 (by omega)⟩
  | treble => exact ⟨⟨8 + code, by omega⟩, rfl, hentry 8 (by omega)⟩

theorem rateSelector_fast {h : Half} (hfast : s.channelOpen (.expr h .fast) = true) : s.rateSelector h = .fast := if_pos hfast

theorem rateSelector_slow {h : Half} (hfast : ¬s.channelOpen (.expr h .fast) = true)
    (hslow : s.channelOpen (.expr h .slow) = true) : s.rateSelector h = .slow := (if_neg hfast).trans (if_pos hslow)

theorem rateSelector_base {h : Half} (hfast : ¬s.channelOpen (.expr h .fast) = true)
    (hslow : ¬s.channelOpen (.expr h .slow) = true) : s.rateSelector h = .base := (if_neg hfast).trans (if_neg hslow)

theorem softApplies_iff : s.softApplies = true ↔
    (s.channelOpen (.pedal .soft) = true ∨ s.pedals.soft.manual = true) ∧ s.pedals.soft.inhibit = false := by
  unfold State.softApplies State.pedal
  rw [Bool.and_eq_true, Bool.or_eq_true, Bool.not_eq_true']

theorem curveValue_eq (k : Key) {e : Fin 256}
    (h : s.effectiveLevel (if k.val + 1 < s.expr.shading[20] then .bass else .treble) / 4 = e.val) :
    s.curveValue k = s.expr.curve[e] := by
  have hindex : s.effectiveLevel (s.halfOf k) / 4 = e.val := h
  unfold State.curveValue
  rw [hindex]
  simp

theorem unscaledIntensity_range (k : Key) : 1 ≤ s.unscaledIntensity k ∧ s.unscaledIntensity k ≤ 1000 := by
  unfold State.unscaledIntensity clampInt
  omega

theorem strikeIntensity_range (k : Key) (hsoft : s.expr.shading[21] ≤ 256) :
    1 ≤ s.strikeIntensity k ∧ s.strikeIntensity k ≤ 1000 := by
  obtain ⟨hmin, hmax⟩ := unscaledIntensity_range s k
  unfold State.strikeIntensity
  split
  · have hscaled : s.unscaledIntensity k * s.softFactor / 256 ≤ 1000 := by
      have hmul : s.unscaledIntensity k * s.softFactor ≤ 1000 * 256 := Nat.mul_le_mul hmax hsoft
      omega
    unfold softScaled
    omega
  · exact ⟨hmin, hmax⟩
end

/-- Settles O32. -/
theorem levelsAndIntensitiesStayInRange : Obligations.LevelsAndIntensitiesStayInRange := by
  unfold Obligations.LevelsAndIntensitiesStayInRange
  refine ⟨fun level target rate => ⟨fun h => ?_, fun h => ?_⟩, fun h s => ?_, fun k s e => curveValue_eq s k,
    fun k s hsoft => ?_⟩
  · rw [moveLevel_up h]
    omega
  · rw [moveLevel_down h]
    omega
  · intro isOpen bit code r now
    have hopen : ∀ f, s.channelOpen f = true ↔ isOpen f := fun f => channelOpen_iff f s
    have hcode : s.shadingCode h = code := by
      unfold State.shadingCode
      rw [bitValue_channelOpen, bitValue_channelOpen, bitValue_channelOpen]
    have haccent : ∀ a, now.accent = a → s.effectiveLevel h =
        if a = true then min 1023 (now.level + s.expr.shading[19]) else now.level := fun a ha => by
      rw [← ha]
      rfl
    have hrate : ∀ sel, s.rateSelector h = sel → r.rate = sel ∧ r.rateValue = s.rateOf sel := fun sel hsel =>
      ⟨hsel, congrArg s.rateOf hsel⟩
    refine ⟨by cases h <;> rfl, hcode ▸ shadingTarget_eq s h (shadingCode_lt s h), hcode, rfl, fun hfast => ?_,
      fun hfast hslow => ?_, fun hfast hslow => ?_, hopen _, rfl, haccent true, haccent false, ?_⟩
    · exact hrate .fast (rateSelector_fast s ((hopen _).2 hfast))
    · exact hrate .slow (rateSelector_slow s (mt (hopen _).1 hfast) ((hopen _).2 hslow))
    · exact hrate .base (rateSelector_base s (mt (hopen _).1 hfast) (mt (hopen _).1 hslow))
    · rw [softApplies_iff, hopen]
  · obtain ⟨hmin, hmax⟩ := strikeIntensity_range s k hsoft
    exact ⟨hmin, hmax, rfl⟩

end Sys2Proof.Machine

namespace Sys2Proof.Machine

/-! ### The END onset (R16, R53) -/

theorem ended_open {d : Detector} {f : RouteFn} (h : f.isLevel = true ∧ d.eff = true) :
    d.ended f = { d with raw := false, run := 0, runFirst := none, eff := false, openLine := none } := by
  unfold Detector.ended
  rw [h.1, h.2]
  rfl

theorem ended_shut {d : Detector} {f : RouteFn} (h : ¬(f.isLevel = true ∧ d.eff = true)) :
    d.ended f = { d with run := 0, runFirst := none } := if_neg (by rwa [Bool.and_eq_true])

theorem ended_eq (d : Detector) (f : RouteFn) : d.ended f = if f.isLevel = true ∧ d.eff = true then
    { d with raw := false, run := 0, runFirst := none, eff := false, openLine := none }
    else { d with run := 0, runFirst := none } := by
  by_cases h : f.isLevel = true ∧ d.eff = true
  · rw [ended_open h, if_pos h]
  · rw [ended_shut h, if_neg h]

theorem endClosed_reader (s : State) : (endClosed s).reader = { s.reader with
    detectors := Vector.ofFn fun t => s.reader.detectors[t].ended s.reader.inForce[t] } := by
  dsimp only [endClosed]

theorem endOnset_reader (e : Nat) (s : State) : (endOnset e s).reader = (endClosed s).reader := by
  rw [endOnset_eq]
  exact (HandsOn.endHanded e s).reader

theorem endOnset_detector (e : Nat) (s : State) (u : Track) :
    (endOnset e s).reader.detectors[u] = s.reader.detectors[u].ended s.reader.inForce[u] := by
  rw [endOnset_reader, endClosed_reader]
  simp

theorem endHanded_perf (e : Nat) (s : State) : (endHanded e s).perf = s.perf := by
  rw [(HandsOn.endHanded e s).perf]
  dsimp only [endClosed]

theorem endOnset_perf (e : Nat) (s : State) :
    (endOnset e s).perf = { s.perf with state := .draining, lossTimer := none, pausePoint := none } := by
  rw [endOnset_eq, endHanded_perf]
  rfl

/-- The closing of a level channel that is open at an END onset: its function, and its opening line. -/
def endPick (e : Nat) (s : State) (f : RouteFn) (u : Track) : Option (RouteFn × Nat) :=
  if f.isLevel = true ∧ s.reader.detectors[u].eff = true then some (f, s.reader.detectors[u].openLine.getD e) else none

theorem endHanded_fold (e : Nat) (s : State) : endHanded e s =
    ((List.ofFn fun u : Track => endPick e s s.reader.inForce[u] u).filterMap id).foldl
      (fun t c => handClosing c.1 (max e c.2) c.2 t) (endClosed s) := by
  have hclosing : ∀ d : Detector, d.endClosing e = max e (d.openLine.getD e) := fun _ => rfl
  have hforce : (endClosed s).reader.inForce = s.reader.inForce := by rw [endClosed_reader]
  have hfold := foldl_tracks (endPick e s) (fun c t => handClosing c.1 (max e c.2) c.2 t)
    (fun t u => if t.reader.inForce[u].isLevel && s.reader.detectors[u].eff then
      handClosing t.reader.inForce[u] (s.reader.detectors[u].endClosing e) (s.reader.detectors[u].openLine.getD e) t else t)
    (fun t u => by
      rw [hclosing]
      unfold endPick
      cases t.reader.inForce[u].isLevel <;> cases s.reader.detectors[u].eff <;> rfl)
    (fun c t => congrArg TrackReader.inForce (HandsOn.handClosing _ _ _ t).reader) (endClosed s)
  rw [hforce] at hfold
  exact hfold

/-- The least of some lines, found by a walk, is the one that no other line precedes. -/
theorem foldl_min_eq {l : List Nat} {a e : Nat} (hmem : e ∈ a :: l) (hmin : ∀ x ∈ a :: l, e ≤ x) : l.foldl min a = e := by
  induction l generalizing a with
  | nil => exact (List.mem_singleton.1 hmem).symm
  | cons b l ih =>
    refine ih ?_ fun x hx => ?_
    · have hab : e ≤ a ∧ e ≤ b := ⟨hmin a (by simp), hmin b (by simp)⟩
      rcases List.mem_cons.1 hmem with h | h
      · have hleast : min a b = e := by omega
        simp [hleast]
      · rcases List.mem_cons.1 h with h | h
        · have hleast : min a b = e := by omega
          simp [hleast]
        · exact List.mem_cons_of_mem _ h
    · rcases List.mem_cons.1 hx with h | h
      · have ha := hmin a (by simp)
        have hb := hmin b (by simp)
        omega
      · exact hmin x (by simp [h])

theorem endLines_eq (steps : Vector TrackStep 112) (s : State) : endLines steps s =
    (List.ofFn fun u : Track => if s.reader.inForce[u] = .endMark then steps[u].onset else none).filterMap id := by
  have hmap : (List.ofFn fun u : Track => if s.reader.inForce[u] = .endMark then steps[u].onset else none) =
      (List.ofFn id).map fun u : Track => if s.reader.inForce[u] = .endMark then steps[u].onset else none := by
    rw [List.map_ofFn]
    rfl
  unfold endLines allTracks
  rw [hmap, List.filterMap_map]
  rfl

theorem handEnd_least {steps : Vector TrackStep 112} {s : State} {e : Nat} (hmem : e ∈ endLines steps s)
    (hmin : ∀ x ∈ endLines steps s, e ≤ x) : handEnd steps s = endOnset e s := by
  unfold handEnd
  split
  · next hnil => rw [hnil] at hmem; cases hmem
  · next a l hcons =>
    rw [hcons] at hmem hmin
    rw [foldl_min_eq hmem hmin]

/-! ### The end of draining (R17) -/

theorem endDraining_spec (s : State) : endDraining s = { s with
    perf := { s.perf with state := .stopped, stopReason := .ended }
    clock := { s.clock with base := s.clock.switch.getD s.clock.base, switch := none }
    pedals := { sustain := (s.pedalTakes .sustain s.pedals.sustain.withoutRoll).1
                soft := (s.pedalTakes .soft s.pedals.soft.withoutRoll).1 }
    mgmt := { s.mgmt with flags := s.mgmt.flags ||| Flag.stopped.mask }
    link := { s.link with sentDrive := s.link.sentDrive ++ s.pedalSends PedalRec.withoutRoll } } := by
  unfold endDraining
  rw [completeSwitch_eq, changePedals_eq]
  rfl

theorem settle_of_drained {s : State} (h : s.perf.state = .draining ∧ s.drained = true) :
    settle s = raiseIf s.anyMismatch .touch (endDraining s) := by
  have hcheck : drainCheck s = endDraining s := if_pos (by rw [h.1, h.2]; rfl)
  have hkeys : (endDraining s).anyMismatch = s.anyMismatch := by rw [endDraining_spec]; rfl
  unfold settle
  dsimp only
  rw [hcheck, hkeys]

theorem settle_of_not_drained {s : State} (h : ¬(s.perf.state = .draining ∧ s.drained = true)) :
    settle s = raiseIf s.anyMismatch .touch s := by
  have hcheck : drainCheck s = s := if_neg fun hdone => h (by simpa using hdone)
  unfold settle
  dsimp only
  rw [hcheck]

/-- Settles O33. -/
theorem endOnsetClosesTheRoll : Obligations.EndOnsetClosesTheRoll := by
  unfold Obligations.EndOnsetClosesTheRoll
  refine ⟨fun e s => ⟨endOnset_perf e s, ?_, fun u => ?_, fun u hlevel => ?_⟩, fun e s => ?_, fun steps s => ?_,
    fun openAt closeAt confirm n sample d => ?_, fun s => ?_⟩
  · rw [endOnset_eq, flag_raise]
    simp
  · rw [endOnset_detector]
    by_cases h : s.reader.inForce[u].isLevel = true ∧ s.reader.detectors[u].eff = true
    · rw [ended_open h]
      exact ⟨rfl, rfl⟩
    · rw [ended_shut h]
      exact ⟨rfl, rfl⟩
  · rw [endOnset_detector]
    cases heff : s.reader.detectors[u].eff with
    | true =>
      rw [ended_open ⟨hlevel, heff⟩]
      simp
    | false =>
      rw [ended_shut fun h => by rw [heff] at h; cases h.2]
      exact ⟨heff, (Bool.and_true _).symm⟩
  · intro detectors closings handed
    have hdetectors : endClosed s = { s with reader := { s.reader with detectors := detectors } } :=
      congrArg (fun v => { s with reader := { s.reader with detectors := v } })
        (congrArg Vector.ofFn (funext fun u => ended_eq s.reader.detectors[u] s.reader.inForce[u]))
    have hclosing : (fun (t : State) (c : RouteFn × Nat) => handClosing c.1 (max e c.2) c.2 t) = fun t c => match c.1 with
        | .note k => requestRelease k (max e c.2) c.2 t
        | .pedal p => requestPedalUp p (max e c.2) c.2 t
        | _ => t := by
      funext t ⟨f, c⟩
      cases f <;> rfl
    have hhanded : endHanded e s = handed := by
      have hfold := endHanded_fold e s
      rw [hclosing, hdetectors] at hfold
      exact hfold
    have hend := endOnset_eq e s
    rw [endHanded_perf, hhanded] at hend
    exact hend
  · intro lines
    have hlines : endLines steps s = lines := endLines_eq steps s
    exact ⟨fun hnil => handEnd_none (hlines.trans hnil), fun e hmem hmin => handEnd_least (hlines ▸ hmem) (hlines ▸ hmin)⟩
  · rw [trackStep_mark (.inl rfl)]
    simp
  · intro pedal quiet finished ended touched mismatch
    have hdrained : s.drained = true ↔ quiet := drained_iff s
    have hmismatch : s.anyMismatch = true ↔ mismatch := anyMismatch_iff s
    have hfinished : (s.perf.state = .draining ∧ s.drained = true) ↔ finished := and_congr_right fun _ => hdrained
    have hended : endDraining s = ended := endDraining_spec s
    have hnone : ¬mismatch → s.anyMismatch = false := fun h => Bool.not_eq_true _ ▸ mt hmismatch.1 h
    refine ⟨hdrained, hmismatch, fun h hno => ?_, fun h hyes => ?_, fun h hno => ?_, fun h hyes => ?_⟩
    · rw [settle_of_drained (hfinished.2 h), hnone hno, hended]
      rfl
    · rw [settle_of_drained (hfinished.2 h), hmismatch.2 hyes, hended]
      rfl
    · rw [settle_of_not_drained (mt hfinished.1 h), hnone hno]
      rfl
    · rw [settle_of_not_drained (mt hfinished.1 h), hmismatch.2 hyes]
      rfl

end Sys2Proof.Machine

namespace Sys2Proof.Machine

/-! ### LOAD of SHADING, CURVE, VOICING and ADAPTPARAM (R61, R64, R66, R153) -/

theorem exec_loadShading_good (id : Byte) (l : Load (BitVec 16)) (s : State) :
    exec (.loadShading id (.good l)) s = request (.loadShading id (.good l)) id (takeShading l) s := rfl

theorem exec_loadCurve_good (id : Byte) (l : Load (BitVec 16)) (s : State) :
    exec (.loadCurve id (.good l)) s = request (.loadCurve id (.good l)) id (takeCurve l) s := rfl

theorem exec_loadVoicing_good (id : Byte) (l : Load (BitVec 16)) (s : State) :
    exec (.loadVoicing id (.good l)) s = request (.loadVoicing id (.good l)) id (takeVoicing l) s := rfl

theorem exec_loadAdaptParam_good (id : Byte) (l : Load (BitVec 16)) (s : State) :
    exec (.loadAdaptParam id (.good l)) s = request (.loadAdaptParam id (.good l)) id (takeAdaptParam l) s := rfl

theorem adaptRange_eq_ite (i : Nat) : adaptRange i = if i = 0 then (1000, 20000) else (2, 8) := by
  cases i <;> rfl

/-- A list that nowhere falls is a chain, so each of its neighbours stand in order. -/
theorem nondecreasing_iff_isChain (l : List Nat) : nondecreasing l = true ↔ l.IsChain (· ≤ ·) := by
  induction l with
  | nil => exact iff_of_true rfl .nil
  | cons a l ih =>
    cases l with
    | nil => exact iff_of_true rfl (.singleton a)
    | cons b l => rw [List.isChain_cons_cons, ← ih, nondecreasing, Bool.and_eq_true, decide_eq_true_iff]

theorem nondecreasing_toList_iff {n : Nat} (v : Vector Nat (n + 1)) :
    nondecreasing v.toList = true ↔ ∀ i : Fin n, v[i.val] ≤ v[i.val + 1] := by
  rw [nondecreasing_iff_isChain, List.isChain_iff_getElem]
  simp only [Vector.length_toList, Vector.getElem_toList]
  exact ⟨fun h i => h i.val (by omega), fun h i hi => h ⟨i, by omega⟩⟩

/-! What each load comes to. -/

theorem takeShading_eq (l : Load (BitVec 16)) (s : State) : takeShading l s =
    if loadFits 22 l then
      ({ s with expr := { s.expr with shading := (loadTakes shadingRange s.expr.shading l).1 } },
        (loadTakes shadingRange s.expr.shading l).2)
    else (s, .invalid) := by
  simp only [takeShading, addresses_iff, clampedLoad_table, clampedLoad_answer]

theorem takeAdaptParam_eq (l : Load (BitVec 16)) (s : State) : takeAdaptParam l s =
    if loadFits 2 l then
      ({ s with calib := { s.calib with adaptParam := (loadTakes adaptRange s.calib.adaptParam l).1 } },
        (loadTakes adaptRange s.calib.adaptParam l).2)
    else (s, .invalid) := by
  simp only [takeAdaptParam, addresses_iff, clampedLoad_table, clampedLoad_answer]

theorem takeCurve_eq (l : Load (BitVec 16)) (s : State) : takeCurve l s =
    let t := loadTakes (fun _ => (0, 1000)) s.expr.curve l
    if loadFits 256 l ∧ ∀ i : Fin 255, t.1[i.val] ≤ t.1[i.val + 1] then
      ({ s with expr := { s.expr with curve := t.1 } }, t.2)
    else (s, .invalid) := by
  simp only [takeCurve, addresses_iff, clampedLoad_table, clampedLoad_answer, nondecreasing_toList_iff, ite_and]

/-- A table laid over by as many values as a load has entries. -/
theorem overlay_eq {α : Type} {n : Nat} (held : Vector α n) (first : Nat) (loaded : List α) (d : α) :
    overlay held first loaded = Vector.ofFn fun i : Fin n =>
      if first ≤ i.val ∧ i.val < first + loaded.length then loaded.getD (i.val - first) d else held[i] := by
  refine Vector.ext fun i hi => ?_
  have hat : (overlay held first loaded)[i] = (overlay held first loaded)[(⟨i, hi⟩ : Fin n)] := rfl
  rw [Vector.getElem_ofFn, hat]
  dsimp only
  split_ifs with h
  · have hin : i - first < loaded.length := by omega
    exact overlay_loaded held (Nat.add_sub_cancel' h.1)
      (by rw [List.getElem?_eq_getElem hin, List.getD_eq_getElem _ _ hin])
  · exact overlay_held held (by dsimp only; omega)

theorem takeVoicing_eq (l : Load (BitVec 16)) (s : State) : takeVoicing l s =
    let voices := l.entries.map fun v => max (-200) (min 200 v.toInt)
    if loadFits 88 l then
      ({ s with expr := { s.expr with voicing := Vector.ofFn fun k =>
          if l.first.toNat ≤ k.val ∧ k.val < l.first.toNat + l.entries.length then voices.getD (k.val - l.first.toNat) 0
          else s.expr.voicing[k] } },
        loadAnswer (l.entries.map BitVec.toInt) voices)
    else (s, .invalid) := by
  set voices := l.entries.map fun v => max (-200) (min 200 v.toInt) with hvoices
  have hclamped : clampEntries (fun _ (v : BitVec 16) => clampInt (-200) 200 v.toInt) l = voices :=
    List.ext_getElem (by simp [hvoices, clampEntries]) fun i _ _ => by simp [hvoices, clampEntries, clampInt]
  have hlength : voices.length = l.entries.length := by rw [hvoices, List.length_map]
  simp only [takeVoicing, addresses_iff, hclamped, loadResult_eq, overlay_eq s.expr.voicing l.first.toNat voices 0,
    hlength]

/-- Neither R17 nor R163 looks at the Expression Decoder. -/
theorem withExpr_settled {s : State} (h : s.settled) (expr : Expression) : State.settled { s with expr := expr } :=
  settled_same h rfl rfl rfl rfl

/-- Nor at the Calibrator. -/
theorem withCalib_settled {s : State} (h : s.settled) (calib : Calibration) : State.settled { s with calib := calib } :=
  settled_same h rfl rfl rfl rfl

/-- Settles O34: each load is taken or refused as its `_eq` lemma says, and neither way raises a flag. -/
theorem loadsReplaceTheirEntries : Obligations.LoadsReplaceTheirEntries := by
  unfold Obligations.LoadsReplaceTheirEntries
  intro id l s hready hsettled invalid shadingEntry adaptEntry
  have hshading : shadingEntry = shadingRange := rfl
  have hadapt : adaptEntry = adaptRange := (funext adaptRange_eq_ite).symm
  rw [hshading, hadapt]
  intro shading curve adapt voices voicing
  refine ⟨?shading, ?curve, ?voicing, ?adapt⟩
  case shading =>
    have he := takeShading_eq l s
    rw [exec_loadShading_good]
    split_ifs at he ⊢
    case pos => exact request_responds hready _ id he (withExpr_settled hsettled _) rfl
    case neg => exact request_responds hready _ id he hsettled rfl
  case curve =>
    have he := takeCurve_eq l s
    rw [exec_loadCurve_good]
    dsimp only at he
    split_ifs at he ⊢
    case pos => exact request_responds hready _ id he (withExpr_settled hsettled _) rfl
    case neg => exact request_responds hready _ id he hsettled rfl
  case voicing =>
    have he := takeVoicing_eq l s
    rw [exec_loadVoicing_good]
    dsimp only at he
    split_ifs at he ⊢
    case pos => exact request_responds hready _ id he (withExpr_settled hsettled _) rfl
    case neg => exact request_responds hready _ id he hsettled rfl
  case adapt =>
    have he := takeAdaptParam_eq l s
    rw [exec_loadAdaptParam_good]
    split_ifs at he ⊢
    case pos => exact request_responds hready _ id he (withCalib_settled hsettled _) rfl
    case neg => exact request_responds hready _ id he hsettled rfl

end Sys2Proof.Machine

namespace Sys2Proof.Machine

/-! ### The entries of the Route Table (R47, R48, R181) -/

/-- The number of a half in an EXPR parameter (R47). -/
def halfCode : Half → Nat
  | .bass => 0
  | .treble => 1

/-- The number of an expression bit in an EXPR parameter (R47). -/
def exprCode : ExprBit → Nat
  | .int1 => 0
  | .int2 => 1
  | .int4 => 2
  | .slow => 3
  | .fast => 4
  | .accent => 5

/-- The function and the parameter byte that stand for a function (R47, R181). -/
def routeCode : RouteFn → Nat × Nat
  | .unused => (0, 0)
  | .note k => (1, k.val + 1)
  | .pedal p => (2, match p with | .sustain => 0 | .soft => 1)
  | .expr h b => (3, 16 * halfCode h + exprCode b)
  | .endMark => (4, 0)
  | .cue => (5, 0)

theorem keyOf?_iff (n : Nat) (k : Key) : keyOf? n = some k ↔ n = k.val + 1 := by
  unfold keyOf?
  split_ifs with h
  · rw [Option.some.injEq, Fin.ext_iff]
    dsimp only
    omega
  · exact iff_of_false nofun (by omega)

/-- The bytes of an entry that is a function are the function's. -/
theorem routeCode_of_routeFn? {r : RawRoute} {f : RouteFn} (h : routeFn? r = some f) :
    (r.function.toNat, r.parameter.toNat) = routeCode f := by
  unfold routeFn? at h
  split at h
  case h_1 hfn | h_5 hfn | h_6 hfn =>
    split_ifs at h with hzero
    cases h
    rw [hfn, hzero]
    rfl
  case h_2 hfn =>
    obtain ⟨k, hkey, rfl⟩ := Option.map_eq_some_iff.1 h
    rw [hfn, (keyOf?_iff _ k).1 hkey]
    rfl
  case h_3 hfn =>
    split at h
    case h_3 => cases h
    all_goals
      next hparam =>
      cases h
      rw [hfn, hparam]
      rfl
  case h_4 hfn =>
    obtain ⟨half, hhalf, hbits⟩ := Option.bind_eq_some_iff.1 h
    obtain ⟨bit, hbit, rfl⟩ := Option.map_eq_some_iff.1 hbits
    have hhigh : r.parameter.toNat / 16 = halfCode half := by
      split at hhalf
      case h_3 => cases hhalf
      all_goals
        next hquotient =>
        cases hhalf
        exact hquotient
    have hlow : r.parameter.toNat % 16 = exprCode bit := by
      split at hbit
      case h_7 => cases hbit
      all_goals
        next hrest =>
        cases hbit
        exact hrest
    have hparam : r.parameter.toNat = 16 * halfCode half + exprCode bit := by omega
    rw [hfn, hparam]
    rfl
  case h_7 => cases h

/-- A function's own bytes are read as that function. -/
theorem routeFn?_of_routeCode {r : RawRoute} {f : RouteFn} (h : (r.function.toNat, r.parameter.toNat) = routeCode f) :
    routeFn? r = some f := by
  have hzero : r.parameter.toNat = 0 → r.parameter = 0 := fun h0 => BitVec.eq_of_toNat_eq h0
  cases f with
  | unused | endMark | cue =>
    obtain ⟨hfn, hparam⟩ := Prod.mk.inj h
    simp [routeFn?, hfn, hzero hparam]
  | note k =>
    obtain ⟨hfn, hparam⟩ := Prod.mk.inj h
    simp [routeFn?, hfn, (keyOf?_iff _ k).2 hparam]
  | pedal p =>
    obtain ⟨hfn, hparam⟩ := Prod.mk.inj h
    cases p <;> simp [routeFn?, hfn, hparam]
  | expr half bit =>
    obtain ⟨hfn, hparam⟩ := Prod.mk.inj h
    cases half <;> cases bit <;> simp [routeFn?, hfn, hparam, halfCode, exprCode]

theorem routeFn?_iff (r : RawRoute) (f : RouteFn) :
    routeFn? r = some f ↔ (r.function.toNat, r.parameter.toNat) = routeCode f :=
  ⟨routeCode_of_routeFn?, routeFn?_of_routeCode⟩

theorem routeEntry?_iff (r : RawRoute) (e : RouteEntry) :
    routeEntry? r = some e ↔ routeFn? r = some e.function ∧ r.mask.toNat = if e.mask then 1 else 0 := by
  obtain ⟨f, mask⟩ := e
  unfold routeEntry?
  split
  case h_1 g hfn hmask | h_2 g hfn hmask => cases mask <;> simp [hfn, hmask]
  case h_3 hother0 hother1 =>
    refine iff_of_false nofun fun ⟨hfn, hmask⟩ => ?_
    cases mask with
    | false => exact hother0 f hfn hmask
    | true => exact hother1 f hfn hmask

theorem routeEntries?_none {rs : List RawRoute} (h : ∃ r ∈ rs, routeEntry? r = none) : routeEntries? rs = none := by
  induction rs with
  | nil => obtain ⟨r, hmem, -⟩ := h; cases hmem
  | cons x xs ih =>
    obtain ⟨r, hmem, hnone⟩ := h
    unfold routeEntries?
    rcases List.mem_cons.1 hmem with rfl | hrest
    · rw [hnone]
    · rw [ih ⟨r, hrest, hnone⟩]
      cases routeEntry? x <;> rfl

theorem routeEntries?_some {rs : List RawRoute} {es : List RouteEntry} (h : rs.map routeEntry? = es.map some) :
    routeEntries? rs = some es := by
  induction rs generalizing es with
  | nil =>
    rw [List.map_nil, eq_comm, List.map_eq_nil_iff] at h
    rw [h]
    rfl
  | cons x xs ih =>
    cases es with
    | nil => cases h
    | cons e es =>
      obtain ⟨hhead, htail⟩ := List.cons.inj h
      unfold routeEntries?
      rw [hhead, ih htail]

/-- Two tracks that hold the same level function clash, whichever stands first. -/
theorem routeClash_iff (route : Vector RouteEntry 112) : routeClash route = true ↔
    ∃ t u : Track, t ≠ u ∧ route[t].function.isLevel = true ∧ route[t].function = route[u].function := by
  unfold routeClash
  rw [any_allTracks]
  simp only [Bool.and_eq_true, any_allTracks, decide_eq_true_iff, beq_iff_eq]
  constructor
  · rintro ⟨t, hlevel, u, hlt, hsame⟩
    exact ⟨t, u, by rintro rfl; omega, hlevel, hsame⟩
  · rintro ⟨t, u, hne, hlevel, hsame⟩
    rcases Nat.lt_or_gt_of_ne (Fin.val_ne_of_ne hne) with hlt | hlt
    · exact ⟨t, hlevel, u, hlt, hsame⟩
    · exact ⟨u, hsame ▸ hlevel, t, hlt, hsame.symm⟩

/-! ### LOAD of ROUTE (R48) -/

theorem exec_loadRoute_good (id : Byte) (l : Load RawRoute) (s : State) :
    exec (.loadRoute id (.good l)) s = request (.loadRoute id (.good l)) id
      (fun s => if l.entries.isEmpty then (s, .invalid) else takeRoute l s) s := rfl

/-- What a Route load comes to, the refusals in order (R48, R168). -/
def routeLoad (l : Load RawRoute) (s : State) : State × Result :=
  if l.entries.isEmpty then (s, .invalid) else takeRoute l s

theorem routeLoad_busy {l : Load RawRoute} {s : State} (hsome : l.entries ≠ []) (hstate : s.perf.state ≠ .stopped) :
    routeLoad l s = (s, .busy) := by
  simp [routeLoad, takeRoute, hsome, hstate]

theorem routeLoad_misfit {l : Load RawRoute} {s : State} (hfits : ¬loadFits 112 l)
    (h : l.entries = [] ∨ s.perf.state = .stopped) : routeLoad l s = (s, .invalid) := by
  unfold routeLoad takeRoute
  split_ifs with hempty hstate haddress
  · rfl
  · exact absurd (h.resolve_left fun hnil => hempty (List.isEmpty_iff.2 hnil)) hstate
  · exact absurd ((addresses_iff 112 l).1 haddress) hfits
  · rfl

theorem routeLoad_entry {l : Load RawRoute} {s : State} (hfits : loadFits 112 l) (hstate : s.perf.state = .stopped)
    (h : ∃ e ∈ l.entries, routeEntry? e = none) : routeLoad l s = (s, .invalid) := by
  simp [routeLoad, takeRoute, hfits.1, hstate, (addresses_iff 112 l).2 hfits, routeEntries?_none h]

theorem routeLoad_entries {l : Load RawRoute} {s : State} {es : List RouteEntry} (hfits : loadFits 112 l)
    (hstate : s.perf.state = .stopped) (h : l.entries.map routeEntry? = es.map some) : routeLoad l s =
    if routeClash (overlay s.reader.route l.first.toNat es) then (s, .invalid)
    else ({ s with reader := { s.reader with route := overlay s.reader.route l.first.toNat es } }, .ok) := by
  simp [routeLoad, takeRoute, hfits.1, hstate, (addresses_iff 112 l).2 hfits, routeEntries?_some h]

/-! ### MASK (R50) -/

theorem exec_mask (on : Bool) (id : Byte) (tracks : List Byte) (s : State) :
    exec (if on then .maskSet id (.good tracks) else .maskClear id (.good tracks)) s =
      request (if on then .maskSet id (.good tracks) else .maskClear id (.good tracks)) id (takeMask on tracks) s := by
  cases on <;> rfl

theorem takeMask_eq (on : Bool) (tracks : List Byte) (s : State) : takeMask on tracks s =
    if ∀ t ∈ tracks, t.toNat ≤ 111 then
      ({ s with reader := { s.reader with route := Vector.ofFn fun t =>
          if ∃ x ∈ tracks, x.toNat = t.val then { s.reader.route[t] with mask := on } else s.reader.route[t] } }, .ok)
    else (s, .invalid) := by
  have hlisted : ∀ t : Track, tracks.any (·.toNat == t.val) = true ↔ ∃ x ∈ tracks, x.toNat = t.val := fun t => by
    simp
  have hroute : maskedRoute on tracks s.reader.route = Vector.ofFn fun t =>
      if ∃ x ∈ tracks, x.toNat = t.val then { s.reader.route[t] with mask := on } else s.reader.route[t] :=
    congrArg Vector.ofFn (funext fun t => if_congr (hlisted t) rfl rfl)
  have hall : tracks.all (·.toNat < 112) = true ↔ ∀ t ∈ tracks, t.toNat ≤ 111 := by
    simp [List.all_eq_true, Nat.lt_succ_iff]
  unfold takeMask
  rw [hroute]
  exact if_congr hall rfl rfl

/-- Settles O36: the entries by their codes, a table by its places, and each request by the way it is taken. -/
theorem routeLoadsAndMasksAreTakenWhole : Obligations.RouteLoadsAndMasksAreTakenWhole := by
  unfold Obligations.RouteLoadsAndMasksAreTakenWhole
  refine ⟨fun r e => ?entries, fun α n held first loaded i => ⟨fun j h v hv => overlay_loaded held h hv, overlay_held held⟩,
    fun id s hready hsettled => ⟨fun l => ⟨fun hsome hstate => ?busy, fun hfits h => ?misfit, fun hfits hstate h => ?entry,
      fun es hfits hstate h => ?taken⟩, fun on tracks => ?mask⟩⟩
  case entries =>
    rw [routeEntry?_iff, routeFn?_iff, and_comm]
    refine and_congr_right fun _ => ?_
    obtain ⟨f, mask⟩ := e
    cases f with
    | pedal p => cases p <;> exact Prod.mk.injEq .. ▸ Iff.rfl
    | expr half bit => cases half <;> cases bit <;> exact Prod.mk.injEq .. ▸ Iff.rfl
    | unused | note k | endMark | cue => exact Prod.mk.injEq .. ▸ Iff.rfl
  case busy => exact request_responds hready _ id (routeLoad_busy hsome hstate) hsettled rfl
  case misfit => exact request_responds hready _ id (routeLoad_misfit hfits h) hsettled rfl
  case entry => exact request_responds hready _ id (routeLoad_entry hfits hstate h) hsettled rfl
  case taken =>
    have he := routeLoad_entries hfits hstate h
    rw [exec_loadRoute_good]
    intro route
    by_cases hclash : routeClash route = true
    · rw [if_pos ((routeClash_iff route).1 hclash)]
      rw [if_pos hclash] at he
      exact request_responds hready _ id he hsettled rfl
    · rw [if_neg (mt (routeClash_iff route).2 hclash)]
      rw [if_neg hclash] at he
      exact request_responds hready _ id he (withReader_settled hsettled _) rfl
  case mask =>
    have he := takeMask_eq on tracks s
    rw [exec_mask]
    by_cases hbound : ∀ t ∈ tracks, t.toNat ≤ 111
    · rw [if_pos hbound] at he ⊢
      exact request_responds hready _ id he (withReader_settled hsettled _) rfl
    · rw [if_neg hbound] at he ⊢
      exact request_responds hready _ id he hsettled rfl

end Sys2Proof.Machine

namespace Sys2Proof.Machine

/-! ### The maps of a profile (R139, R140 steps 1 and 2) -/

/-- A board byte that is in range: a board's number, or NONE. -/
def boardByteOk (b : Byte) : Prop := b.toNat < 4 ∨ b = 0xFF

/-- The board a byte stands for: none for NONE. -/
def boardWired (raw : Byte) (b : Option Board) : Prop := (b = none ↔ raw = 0xFF) ∧ ∀ x, b = some x → x.val = raw.toNat

theorem boardOf?_iff (n : Nat) (b : Board) : boardOf? n = some b ↔ b.val = n := by
  unfold boardOf?
  split_ifs with h
  · rw [Option.some.injEq, Fin.ext_iff, eq_comm]
  · exact iff_of_false nofun fun heq => h (heq ▸ b.isLt)

theorem rawBoard?_wired {raw : Byte} {b : Option Board} (h : rawBoard? raw = some b) : boardWired raw b := by
  unfold rawBoard? at h
  split_ifs at h with hnone
  · cases h
    exact ⟨iff_of_true rfl hnone, nofun⟩
  · obtain ⟨x, hx, rfl⟩ := Option.map_eq_some_iff.1 h
    exact ⟨iff_of_false nofun hnone, fun y hy => Option.some.inj hy ▸ (boardOf?_iff _ x).1 hx⟩

theorem rawBoard?_exists_iff (raw : Byte) : (∃ b, rawBoard? raw = some b) ↔ boardByteOk raw := by
  unfold rawBoard? boardByteOk boardOf?
  split_ifs with hnone hlt
  · exact iff_of_true ⟨_, rfl⟩ (.inr hnone)
  · exact iff_of_true ⟨_, rfl⟩ (.inl hlt)
  · exact iff_of_false nofun (not_or.2 ⟨hlt, hnone⟩)

theorem keyMap?_eq_some_iff (m : RawKeyMap) (x : KeyMap) : keyMap? m = some x ↔
    m.channel.toNat < 24 ∧ rawBoard? m.board = some x.board ∧ x.channel = m.channel.toNat ∧ x.sensor = m.sensor := by
  obtain ⟨board, channel, sensor⟩ := x
  unfold keyMap?
  split_ifs with hchannel
  · simp [hchannel, eq_comm]
  · exact iff_of_false nofun fun h => hchannel h.1

theorem pedalMap?_eq_some_iff (m : RawPedalMap) (x : PedalMap) : pedalMap? m = some x ↔
    m.channel.toNat < 24 ∧ rawBoard? m.board = some x.board ∧ x.channel = m.channel.toNat := by
  obtain ⟨board, channel⟩ := x
  unfold pedalMap?
  split_ifs with hchannel
  · simp [hchannel, eq_comm]
  · exact iff_of_false nofun fun h => hchannel h.1

theorem keyMap?_exists_iff (m : RawKeyMap) :
    (∃ x, keyMap? m = some x) ↔ boardByteOk m.board ∧ m.channel.toNat < 24 := by
  rw [← rawBoard?_exists_iff]
  simp only [keyMap?_eq_some_iff]
  exact ⟨fun ⟨x, hchannel, hboard, _⟩ => ⟨⟨_, hboard⟩, hchannel⟩,
    fun ⟨⟨b, hboard⟩, hchannel⟩ => ⟨⟨b, _, _⟩, hchannel, hboard, rfl, rfl⟩⟩

theorem pedalMap?_exists_iff (m : RawPedalMap) :
    (∃ x, pedalMap? m = some x) ↔ boardByteOk m.board ∧ m.channel.toNat < 24 := by
  rw [← rawBoard?_exists_iff]
  simp only [pedalMap?_eq_some_iff]
  exact ⟨fun ⟨x, hchannel, hboard, _⟩ => ⟨⟨_, hboard⟩, hchannel⟩,
    fun ⟨⟨b, hboard⟩, hchannel⟩ => ⟨⟨b, _⟩, hchannel, hboard, rfl⟩⟩

/-! ### The profile that a request carries -/

/-- The maps and the parameters of a profile are those that a request states. -/
structure ProfileReads (r : RawProfile) (p : Profile) : Prop where
  keys : ∀ k : Key, keyMap? r.keys[k] = some p.keys[k]
  sustain : pedalMap? r.sustain = some p.sustain
  soft : pedalMap? r.soft = some p.soft
  mTot : p.mTot = stated 1 64 20 r.mTot
  holdLimit : p.holdLimit = stated 1 60 20 r.holdLimit
  returnTimeout : p.returnTimeout = stated 40 500 150 r.returnTimeout
  returnTime : p.returnTime = stated 20 300 80 r.returnTime

theorem ProfileReads.unique {r : RawProfile} {p q : Profile} (hp : ProfileReads r p) (hq : ProfileReads r q) : p = q := by
  have hkeys : p.keys = q.keys := Vector.ext fun i hi =>
    Option.some.inj ((hp.keys ⟨i, hi⟩).symm.trans (hq.keys ⟨i, hi⟩))
  have hsustain := Option.some.inj (hp.sustain.symm.trans hq.sustain)
  have hsoft := Option.some.inj (hp.soft.symm.trans hq.soft)
  have hmTot := hp.mTot.trans hq.mTot.symm
  have hhold := hp.holdLimit.trans hq.holdLimit.symm
  have htimeout := hp.returnTimeout.trans hq.returnTimeout.symm
  have htime := hp.returnTime.trans hq.returnTime.symm
  cases p
  cases q
  congr

theorem hasRepeat_iff (l : List (Board × Nat)) : hasRepeat l = false ↔ l.Nodup := by
  induction l with
  | nil => exact iff_of_true rfl .nil
  | cons x xs ih => simp [hasRepeat, ih]

/-- What a request states, with the pedal maps given and each key map read. -/
def profileRead (r : RawProfile) (sustain soft : PedalMap) : Profile :=
  { keys := Vector.ofFn fun k => (keyMap? r.keys[k]).getD ⟨none, 0, false⟩
    sustain := sustain, soft := soft, mTot := stated 1 64 20 r.mTot, holdLimit := stated 1 60 20 r.holdLimit
    returnTimeout := stated 40 500 150 r.returnTimeout, returnTime := stated 20 300 80 r.returnTime }

/-- A profile passes when its wires are on present boards and none stands twice (R140 step 3). -/
def profilePasses (r : RawProfile) (p : Profile) : Prop :=
  (∀ w ∈ profileWires p, r.boards[w.1].present = true) ∧ (profileWires p).Nodup

theorem profileRead_reads {r : RawProfile} {sustain soft : PedalMap} (hkeys : ∀ k : Key, ∃ x, keyMap? r.keys[k] = some x)
    (hsustain : pedalMap? r.sustain = some sustain) (hsoft : pedalMap? r.soft = some soft) :
    ProfileReads r (profileRead r sustain soft) := by
  refine ⟨fun k => ?_, hsustain, hsoft, rfl, rfl, rfl, rfl⟩
  obtain ⟨x, hx⟩ := hkeys k
  have hk : (profileRead r sustain soft).keys[k] = (keyMap? r.keys[k]).getD ⟨none, 0, false⟩ :=
    Vector.getElem_ofFn (i := k.val) k.isLt
  rw [hk, hx]
  rfl

theorem profilePasses_iff (r : RawProfile) (p : Profile) :
    ((profileWires p).all (fun w => r.boards[w.1].present) && !hasRepeat (profileWires p)) = true ↔
      profilePasses r p := by
  rw [Bool.and_eq_true, List.all_eq_true, Bool.not_eq_true', hasRepeat_iff]
  rfl

theorem profileOf?_reads {r : RawProfile} {sustain soft : PedalMap} (hkeys : ∀ k : Key, ∃ x, keyMap? r.keys[k] = some x)
    (hsustain : pedalMap? r.sustain = some sustain) (hsoft : pedalMap? r.soft = some soft) : profileOf? r =
    if (profileWires (profileRead r sustain soft)).all (fun w => r.boards[w.1].present) &&
      !hasRepeat (profileWires (profileRead r sustain soft)) then some (profileRead r sustain soft) else none := by
  have hall : (allKeys.all fun k => (keyMap? r.keys[k]).isSome) = true :=
    List.all_eq_true.2 fun k _ => Option.isSome_iff_exists.2 (hkeys k)
  unfold profileOf?
  rw [hsustain, hsoft]
  exact if_pos hall

theorem profileOf?_maps {r : RawProfile} {p : Profile} (h : profileOf? r = some p) :
    (∀ k : Key, ∃ x, keyMap? r.keys[k] = some x) ∧ (∃ x, pedalMap? r.sustain = some x) ∧
      ∃ x, pedalMap? r.soft = some x := by
  unfold profileOf? at h
  split at h
  case h_1 sustain soft hsustain hsoft =>
    split at h
    case isTrue hkeys =>
      exact ⟨fun k => Option.isSome_iff_exists.1 (List.all_eq_true.1 hkeys k (mem_allKeys k)), ⟨_, hsustain⟩, ⟨_, hsoft⟩⟩
    case isFalse => cases h
  case h_2 => cases h

/-- The profile that is taken: read from the request, and one that passes (R140). -/
theorem profileOf?_eq_some_iff (r : RawProfile) (p : Profile) :
    profileOf? r = some p ↔ ProfileReads r p ∧ profilePasses r p := by
  constructor
  · intro h
    obtain ⟨hkeys, ⟨sustain, hsustain⟩, soft, hsoft⟩ := profileOf?_maps h
    rw [profileOf?_reads hkeys hsustain hsoft] at h
    obtain ⟨hpasses, heq⟩ := Option.ite_none_right_eq_some.1 h
    rw [← Option.some.inj heq]
    exact ⟨profileRead_reads hkeys hsustain hsoft, (profilePasses_iff r _).1 hpasses⟩
  · rintro ⟨hreads, hpasses⟩
    have hkeys : ∀ k : Key, ∃ x, keyMap? r.keys[k] = some x := fun k => ⟨_, hreads.keys k⟩
    rw [profileOf?_reads hkeys hreads.sustain hreads.soft,
      (profileRead_reads hkeys hreads.sustain hreads.soft).unique hreads, if_pos ((profilePasses_iff r p).2 hpasses)]

/-! ### The targets of a profile -/

/-- The board byte and the channel of each target: the keys, SUSTAIN and SOFT. -/
def profileTargets (r : RawProfile) : List (Byte × BitVec 5) :=
  (List.ofFn fun k : Key => (r.keys[k].board, r.keys[k].channel)) ++
    [(r.sustain.board, r.sustain.channel), (r.soft.board, r.soft.channel)]

/-- The wire of a target. -/
def wireOf (x : Byte × BitVec 5) : Option (Board × Nat) := (boardOf? x.1.toNat).map fun b => (b, x.2.toNat)

theorem wireOf_eq_some_iff (x : Byte × BitVec 5) (w : Board × Nat) :
    wireOf x = some w ↔ w.1.val = x.1.toNat ∧ w.2 = x.2.toNat := by
  obtain ⟨b, channel⟩ := w
  simp [wireOf, boardOf?_iff, eq_comm (b := channel)]

theorem wireOf_of_wired {x : Byte × BitVec 5} {b : Option Board} {channel : Nat} (hwired : boardWired x.1 b)
    (hchannel : channel = x.2.toNat) : b.map (fun b => (b, channel)) = wireOf x := by
  obtain ⟨raw, ch⟩ := x
  cases b with
  | none =>
    have hraw : raw = 0xFF := hwired.1.1 rfl
    rw [hraw]
    rfl
  | some b => exact ((wireOf_eq_some_iff _ _).2 ⟨hwired.2 b rfl, hchannel⟩).symm

theorem profileTargets_forall (r : RawProfile) (P : Byte × BitVec 5 → Prop) : (∀ x ∈ profileTargets r, P x) ↔
    (∀ k : Key, P (r.keys[k].board, r.keys[k].channel)) ∧ P (r.sustain.board, r.sustain.channel) ∧
      P (r.soft.board, r.soft.channel) := by
  simp only [profileTargets, List.forall_mem_append, List.forall_mem_ofFn_iff, List.forall_mem_cons,
    List.not_mem_nil, false_implies, implies_true, and_true]

theorem profileWires_eq (p : Profile) : profileWires p =
    ((List.ofFn fun k : Key => p.keys[k].board.map fun b => (b, p.keys[k].channel)) ++
      [p.sustain.board.map fun b => (b, p.sustain.channel), p.soft.board.map fun b => (b, p.soft.channel)]).filterMap id := by
  have hkeys : (List.ofFn fun k : Key => p.keys[k].board.map fun b => (b, p.keys[k].channel)) =
      allKeys.map fun k => p.keys[k].board.map fun b => (b, p.keys[k].channel) := by
    unfold allKeys
    rw [List.map_ofFn]
    rfl
  unfold profileWires
  rw [List.filterMap_append, hkeys, List.filterMap_map]
  rfl

theorem ProfileReads.wires {r : RawProfile} {p : Profile} (h : ProfileReads r p) :
    profileWires p = (profileTargets r).filterMap wireOf := by
  have hkey : ∀ k : Key, p.keys[k].board.map (fun b => (b, p.keys[k].channel)) =
      wireOf (r.keys[k].board, r.keys[k].channel) := fun k => by
    obtain ⟨-, hboard, hchannel, -⟩ := (keyMap?_eq_some_iff _ _).1 (h.keys k)
    exact wireOf_of_wired (rawBoard?_wired hboard) hchannel
  have hpedal : ∀ {m : RawPedalMap} {x : PedalMap}, pedalMap? m = some x →
      x.board.map (fun b => (b, x.channel)) = wireOf (m.board, m.channel) := fun hm => by
    obtain ⟨-, hboard, hchannel⟩ := (pedalMap?_eq_some_iff _ _).1 hm
    exact wireOf_of_wired (rawBoard?_wired hboard) hchannel
  have htargets : (profileTargets r).filterMap wireOf = ((profileTargets r).map wireOf).filterMap id := by
    rw [List.filterMap_map]
    rfl
  rw [profileWires_eq, htargets, profileTargets, List.map_append, List.map_ofFn, funext hkey, hpedal h.sustain,
    hpedal h.soft]
  rfl

/-! ### Which profiles pass -/

theorem profileReads_exists_iff (r : RawProfile) : (∃ p, ProfileReads r p) ↔
    ∀ x ∈ profileTargets r, boardByteOk x.1 ∧ x.2.toNat < 24 := by
  rw [profileTargets_forall]
  simp only [← keyMap?_exists_iff, ← pedalMap?_exists_iff]
  constructor
  · rintro ⟨p, hp⟩
    exact ⟨fun k => ⟨_, hp.keys k⟩, ⟨_, hp.sustain⟩, _, hp.soft⟩
  · rintro ⟨hkeys, ⟨sustain, hsustain⟩, soft, hsoft⟩
    exact ⟨_, profileRead_reads hkeys hsustain hsoft⟩

theorem wires_present_iff (r : RawProfile) :
    (∀ w ∈ (profileTargets r).filterMap wireOf, r.boards[w.1].present = true) ↔
      ∀ x ∈ profileTargets r, ∀ b : Board, x.1.toNat = b.val → r.boards[b].present = true := by
  simp only [List.mem_filterMap, wireOf_eq_some_iff]
  exact ⟨fun h x hx b hb => h (b, x.2.toNat) ⟨x, hx, hb.symm, rfl⟩,
    fun h w ⟨x, hx, hboard, _⟩ => h x hx w.1 hboard.symm⟩

/-- In range, two targets share a wire when they are the same board and channel, and NONE has no wire. -/
theorem wires_apart_iff {l : List (Byte × BitVec 5)} (h : ∀ x ∈ l, boardByteOk x.1) :
    (l.filterMap wireOf).Nodup ↔ (l.filter (·.1 ≠ 0xFF)).Nodup := by
  have hwired : ∀ x ∈ l, x.1 ≠ 0xFF → ∃ b : Board, wireOf x = some (b, x.2.toNat) := fun x hx hne => by
    have hlt : x.1.toNat < 4 := (h x hx).resolve_right hne
    exact ⟨⟨x.1.toNat, hlt⟩, (wireOf_eq_some_iff _ _).2 ⟨rfl, rfl⟩⟩
  have hnone : ∀ {x : Byte × BitVec 5} {w}, wireOf x = some w → x.1 ≠ 0xFF := fun {x w} hw hx => by
    have hval := ((wireOf_eq_some_iff x w).1 hw).1
    have hlt := w.1.isLt
    rw [hval, hx] at hlt
    exact absurd hlt (by decide)
  unfold List.Nodup
  rw [List.pairwise_filterMap, List.pairwise_filter]
  refine List.Pairwise.iff_of_mem fun {x y} hx hy => ⟨fun hapart hxne hyne heq => ?_, fun hapart w hw v hv heq => ?_⟩
  · obtain ⟨b, hb⟩ := hwired x hx (of_decide_eq_true hxne)
    exact hapart _ hb _ (heq ▸ hb) rfl
  · subst heq
    obtain ⟨hxboard, hxchannel⟩ := (wireOf_eq_some_iff _ _).1 hw
    obtain ⟨hyboard, hychannel⟩ := (wireOf_eq_some_iff _ _).1 hv
    refine hapart (decide_eq_true (hnone hw)) (decide_eq_true (hnone hv)) (Prod.ext ?_ ?_)
    · exact BitVec.eq_of_toNat_eq (hxboard.symm.trans hyboard)
    · exact BitVec.eq_of_toNat_eq (hxchannel.symm.trans hychannel)

theorem profileOf?_ne_none_iff (r : RawProfile) : profileOf? r ≠ none ↔
    (∀ x ∈ profileTargets r, boardByteOk x.1 ∧ x.2.toNat < 24) ∧
      (∀ x ∈ profileTargets r, ∀ b : Board, x.1.toNat = b.val → r.boards[b].present = true) ∧
      ((profileTargets r).filter (·.1 ≠ 0xFF)).Nodup := by
  rw [Option.ne_none_iff_exists']
  simp only [profileOf?_eq_some_iff]
  rw [← profileReads_exists_iff, ← wires_present_iff]
  constructor
  · rintro ⟨p, hreads, hpresent, hapart⟩
    rw [hreads.wires] at hpresent hapart
    have hrange := (profileReads_exists_iff r).1 ⟨p, hreads⟩
    exact ⟨⟨p, hreads⟩, hpresent, (wires_apart_iff fun x hx => (hrange x hx).1).1 hapart⟩
  · rintro ⟨⟨p, hreads⟩, hpresent, hapart⟩
    have hrange := (profileReads_exists_iff r).1 ⟨p, hreads⟩
    have hnodup := (wires_apart_iff fun x hx => (hrange x hx).1).2 hapart
    rw [← hreads.wires] at hpresent hnodup
    exact ⟨p, hreads, hpresent, hnodup⟩

/-! ### The parameters -/

theorem outside_iff {w : Nat} (lo hi : Nat) (v : Option (BitVec w)) :
    outside lo hi v = true ↔ ∃ x, v = some x ∧ (x.toNat < lo ∨ hi < x.toNat) := by
  simp [outside, Option.any_eq_true]

/-- A parameter lies in its range when its default does. -/
theorem stated_bounds {w : Nat} {lo hi dflt : Nat} (h : lo ≤ dflt ∧ dflt ≤ hi) (v : Option (BitVec w)) :
    lo ≤ stated lo hi dflt v ∧ stated lo hi dflt v ≤ hi := by
  cases v with
  | none => exact h
  | some x =>
    unfold stated clampNat
    dsimp only
    omega

/-- Settles O39: the maps and parameters as `ProfileReads` reads them, and the checks of R140 on the targets' wires. -/
theorem profilesThatPassAreSound : Obligations.ProfilesThatPassAreSound := by
  unfold Obligations.ProfilesThatPassAreSound
  intro r boardOk targets inRange onPresent apart param beyond wired
  have hparam : ∀ {w : Nat} (lo hi dflt : Nat) (v : Option (BitVec w)), stated lo hi dflt v = param lo hi dflt v := by
    intro w lo hi dflt v
    cases v <;> rfl
  refine ⟨profileOf?_ne_none_iff r, fun b => ?params, ?clamped, profileWires_eq, fun p hp => ?sound⟩
  case params =>
    unfold boardParams
    simp only [hparam]
  case clamped =>
    unfold profileClamped
    simp only [Bool.or_eq_true, outside_iff, or_assoc, List.any_eq_true, mem_allBoards, true_and]
    exact Iff.rfl
  case sound =>
    obtain ⟨hreads, hpresent, hapart⟩ := (profileOf?_eq_some_iff r p).1 hp
    have hrange := (profileReads_exists_iff r).1 ⟨p, hreads⟩
    have hpedal : ∀ {m : RawPedalMap} {x : PedalMap}, pedalMap? m = some x →
        wired m.board x.board ∧ x.channel = m.channel.toNat := fun hm => by
      obtain ⟨-, hboard, hchannel⟩ := (pedalMap?_eq_some_iff _ _).1 hm
      exact ⟨rawBoard?_wired hboard, hchannel⟩
    refine ⟨fun k => ?_, hpedal hreads.sustain, hpedal hreads.soft, hreads.mTot.trans (hparam ..),
      hreads.holdLimit.trans (hparam ..), hreads.returnTimeout.trans (hparam ..), hreads.returnTime.trans (hparam ..),
      hapart, fun w hw => ⟨hpresent w hw, ?_⟩, ?_, ?_, ?_, ?_, fun b => ?_⟩
    · obtain ⟨-, hboard, hchannel, hsensor⟩ := (keyMap?_eq_some_iff _ _).1 (hreads.keys k)
      exact ⟨rawBoard?_wired hboard, hchannel, hsensor⟩
    · rw [hreads.wires] at hw
      obtain ⟨x, hx, hwire⟩ := List.mem_filterMap.1 hw
      rw [((wireOf_eq_some_iff x w).1 hwire).2]
      exact (hrange x hx).2
    · rw [hreads.mTot]
      exact stated_bounds (by decide) _
    · rw [hreads.holdLimit]
      exact stated_bounds (by decide) _
    · rw [hreads.returnTimeout]
      exact stated_bounds (by decide) _
    · rw [hreads.returnTime]
      exact stated_bounds (by decide) _
    · have hmB := stated_bounds (lo := 1) (hi := 24) (dflt := 8) (by decide) r.boards[b].mB
      have hwidth := stated_bounds (lo := 2000) (hi := 40000) (dflt := 20000) (by decide) r.boards[b].engageWidth
      exact ⟨hmB.1, hmB.2, hwidth.1, hwidth.2⟩

end Sys2Proof.Machine

namespace Sys2Proof.Machine

/-! ### PROFILE (R169, R140, R141) -/

/-- What a PROFILE request comes to. -/
def profileTaken (r : RawProfile) (s : State) : State × Result :=
  if s.port.profile.isSome then (s, .once) else takeProfile r s

theorem exec_profile_good (id : Byte) (r : RawProfile) (s : State) :
    exec (.profile id (.good r)) s = request (.profile id (.good r)) id (profileTaken r) s := rfl

/-- The Board records and the profile as they are written. -/
def profileWritten (r : RawProfile) (p : Profile) (s : State) : State :=
  { s with port := { boards := Vector.ofFn fun b => (s.board b).written r.boards[b], profile := some p } }

theorem profileWritten_boardEnabled (r : RawProfile) (p : Profile) (s : State) (b : Board) :
    (profileWritten r p s).boardEnabled b = r.boards[b].present := by
  have hboard : (profileWritten r p s).board b = (s.board b).written r.boards[b] := by
    simp [profileWritten, State.board]
  unfold State.boardEnabled
  rw [hboard]
  unfold BoardRec.written
  cases r.boards[b].present <;> rfl

/-- The target of a key that is not NONE stands on a present board, so the key is served as soon as it is written. -/
theorem profileWritten_serves {r : RawProfile} {p : Profile} (hpasses : profilePasses r p) (s : State) (k : Key) :
    ((profileWritten r p s).keyWire k).any (fun w => (profileWritten r p s).boardEnabled w.1) =
      decide (p.keys[k].board ≠ none) := by
  have hwire : (profileWritten r p s).keyWire k = p.keys[k].board.map fun b => (b, p.keys[k].channel) := rfl
  rw [hwire]
  cases hboard : p.keys[k].board with
  | none => rfl
  | some b =>
    have hmem : (b, p.keys[k].channel) ∈ profileWires p :=
      List.mem_append_left _ (List.mem_filterMap.2 ⟨k, mem_allKeys k, by rw [hboard]; rfl⟩)
    have hpresent := hpasses.1 _ hmem
    simpa [profileWritten_boardEnabled] using hpresent

/-- Each key on a board becomes RESTING. -/
def profileRests (p : Profile) (k : Key) (r : KeyRec) : KeyRec :=
  if p.keys[k].board ≠ none then { r with phase := .resting } else r

theorem updatePedal_self (p : Pedal) (s : State) : updatePedal p (fun r => r) s = s := by
  cases p <;> rfl

theorem writeProfile_changes {r : RawProfile} {p : Profile} (hpasses : profilePasses r p) (s : State) :
    writeProfile r p s = changePedals (fun r => r) (mapKeys (profileRests p) (profileWritten r p s)) := by
  have hrests : (fun k key => if ((profileWritten r p s).keyWire k).any (fun w => (profileWritten r p s).boardEnabled w.1)
      then { key with phase := .resting } else key) = profileRests p := by
    funext k key
    rw [profileWritten_serves hpasses]
    unfold profileRests
    simp only [decide_eq_true_eq]
  rw [← hrests]
  unfold changePedals changePedal
  rw [updatePedal_self, updatePedal_self]
  rfl

theorem writeProfile_eq {r : RawProfile} {p : Profile} (hpasses : profilePasses r p) (s : State) :
    writeProfile r p s = { profileWritten r p s with
      keys := Vector.ofFn fun k => profileRests p k (s.key k)
      pedals := { sustain := ((profileWritten r p s).pedalTakes .sustain s.pedals.sustain).1
                  soft := ((profileWritten r p s).pedalTakes .soft s.pedals.soft).1 }
      link := { s.link with sentDrive := s.link.sentDrive ++ (profileWritten r p s).pedalSends fun r => r } } := by
  have hport : (mapKeys (profileRests p) (profileWritten r p s)).port = (profileWritten r p s).port := mapKeys_port _ _
  have hboard : ∀ b, (mapKeys (profileRests p) (profileWritten r p s)).board b = (profileWritten r p s).board b :=
    fun b => congrArg (fun q : ActionPort => q.boards[b]) hport
  have hprofile := congrArg ActionPort.profile hport
  have hservice := fun b => congrArg BoardRec.service (hboard b)
  have hparams := fun b => congrArg BoardRec.params (hboard b)
  have htime : (mapKeys (profileRests p) (profileWritten r p s)).clock.actionTime = (profileWritten r p s).clock.actionTime :=
    congrArg LineClock.actionTime (mapKeys_clock _ _)
  have htakes := pedalTakes_congr hprofile hservice hparams htime
  have hsends := pedalSends_congr hprofile hservice hparams htime (mapKeys_pedals _ _) fun r => r
  rw [writeProfile_changes hpasses, changePedals_eq, htakes, htakes, hsends]
  simp only [mapKeys, profileWritten, State.key]

/-! The branches of `profileTaken`. -/

theorem profileTaken_once {r : RawProfile} {s : State} (h : s.port.profile ≠ none) : profileTaken r s = (s, .once) :=
  if_pos (Option.isSome_iff_ne_none.2 h)

theorem profileTaken_invalid {r : RawProfile} {s : State} (hnone : s.port.profile = none) (h : profileOf? r = none) :
    profileTaken r s = (s, .invalid) := by
  simp [profileTaken, hnone, takeProfile, h]

theorem profileTaken_written {r : RawProfile} {p : Profile} {s : State} (hnone : s.port.profile = none)
    (h : profileOf? r = some p) : profileTaken r s = (writeProfile r p s, loadResult (profileClamped r)) := by
  simp [profileTaken, hnone, takeProfile, h]

/-- Settles O38: the branches of `profileTaken`, and what a written profile leaves by `writeProfile_eq`. -/
theorem profileIsWrittenOnce : Obligations.ProfileIsWrittenOnce := by
  unfold Obligations.ProfileIsWrittenOnce
  intro id r s hready hsettled
  refine ⟨fun honce => ?_, fun hnone hinvalid => ?_, fun p hnone hprofile => ?_⟩
  · exact request_responds hready _ id (profileTaken_once honce) hsettled rfl
  · exact request_responds hready _ id (profileTaken_invalid hnone hinvalid) hsettled rfl
  · intro boards written
    have hpasses := ((profileOf?_eq_some_iff r p).1 hprofile).2
    have hwritten : profileWritten r p s = written := rfl
    rw [exec_profile_good, request_ready hready, profileTaken_written hnone hprofile, writeProfile_eq hpasses, hwritten]
    rfl

end Sys2Proof.Machine

namespace Sys2Proof.Machine

/-- A part's own event that leaves a settled state with the flags as they were makes no notice due. -/
theorem timedEvent_settled {s t : State} {due : Bool} {act : State → State} (hdue : due = true) (hact : act s = t)
    (hsettled : t.settled) (hflags : t.mgmt.flags = s.mgmt.flags) : timedEvent due act s = .next t := by
  rw [hdue, timedEvent_due, hact, settle_of_settled hsettled]
  exact congrArg _ (ended_same hflags)

theorem timedEvent_idle {due : Bool} (h : due = false) (act : State → State) (s : State) :
    timedEvent due act s = .next s := by
  rw [h]
  rfl

/-- A timer that is not running, or runs on, has not been reached. -/
theorem not_reached_of {s : State} {timer : Option Nat} (h : timer = none ∨ ∃ t, timer = some t ∧ s.clock.actionTime < t) :
    s.reached timer = false := by
  refine Bool.eq_false_iff.2 fun hreached => ?_
  obtain ⟨t, ht, hle⟩ := (reached_iff s timer).1 hreached
  rcases h with hnone | ⟨u, hu, hlt⟩
  · exact nomatch hnone.symm.trans ht
  · have hut : u = t := Option.some.inj (hu.symm.trans ht)
    omega

/-! ### The pedals (R87 to R91) -/

theorem pedalWire_params {p : Pedal} {s : State} {b : Board} {channel : Nat} {x : BoardParams}
    (hwire : s.pedalWire p = some (b, channel)) (hparams : (s.board b).params = some x) :
    s.engageWidth p = x.engageWidth ∧ s.pedalHoldDuty p = x.pedalHoldDuty := by
  simp [State.engageWidth, State.pedalHoldDuty, hwire, hparams]

theorem commandedDown_iff (p : Pedal) (s : State) : s.commandedDown p = true ↔
    (∃ b channel, s.pedalWire p = some (b, channel) ∧ (s.board b).service = .enabled) ∧
      (s.pedal p).inhibit = false ∧ ((s.pedal p).roll = true ∨ (s.pedal p).manual = true) := by
  simp [State.commandedDown, Option.any_eq_true, State.boardEnabled, and_assoc]

theorem towardDown_iff (r : PedalRec) :
    r.towardDown = true ↔ r.phase = .down ∨ (r.phase = .engaging ∧ r.relWait = false) := by
  unfold PedalRec.towardDown
  cases r.phase <;> simp

/-- Neither R17 nor R163 looks at the pedals or at what is sent. -/
theorem changePedal_settled {s : State} (h : s.settled) (p : Pedal) (f : PedalRec → PedalRec) :
    (changePedal p f s).settled := by
  rw [changePedal_eq]
  cases p <;> exact settled_same h rfl rfl rfl rfl

theorem changePedal_flags (p : Pedal) (f : PedalRec → PedalRec) (s : State) :
    (changePedal p f s).mgmt.flags = s.mgmt.flags := by
  rw [changePedal_eq]
  cases p <;> rfl

/-- A request that changes a pedal's sources alone. -/
theorem request_changePedal {s : State} (hready : s.ready) (hsettled : s.settled) (c : Instr) (id : Byte) (p : Pedal)
    (f : PedalRec → PedalRec) : request c id (fun t => (changePedal p f t, .ok)) s =
      .next (State.nowDue (changePedal p f s) [.response id .ok []]) :=
  request_responds hready c id rfl (changePedal_settled hsettled p f) (changePedal_flags p f s)

/-! ### The engage end (R89) -/

theorem exec_engageEnd (p : Pedal) (s : State) : exec (.engageEnd p) s =
    timedEvent ((s.pedal p).phase = .engaging && s.reached (s.pedal p).engageEnd) (endEngage p) s := rfl

theorem engageEnd_due_iff (p : Pedal) (s : State) :
    (decide ((s.pedal p).phase = .engaging) && s.reached (s.pedal p).engageEnd) = true ↔
      (s.pedal p).phase = .engaging ∧ ∃ t, (s.pedal p).engageEnd = some t ∧ t ≤ s.clock.actionTime := by
  rw [Bool.and_eq_true, decide_eq_true_iff, reached_iff]

theorem endEngage_settled {s : State} (h : s.settled) (p : Pedal) : (endEngage p s).settled := by
  unfold endEngage
  split <;> cases p <;> exact settled_same h rfl rfl rfl rfl

theorem endEngage_flags (p : Pedal) (s : State) : (endEngage p s).mgmt.flags = s.mgmt.flags := by
  unfold endEngage
  split <;> cases p <;> rfl

theorem endEngage_eq (p : Pedal) (s : State) : endEngage p s =
    if (s.pedal p).relWait then
      setPedal p { s.pedal p with phase := .up, relWait := false, engageEnd := none } (sendPedal p .off s)
    else setPedal p { s.pedal p with phase := .down, engageEnd := none } (sendPedal p (.hold (s.pedalHoldDuty p)) s) := by
  cases p <;> rfl

/-- Settles O40: the sources by `changePedal_eq`, the engage end by `endEngage_eq`; neither raises a flag. -/
theorem pedalsFollowTheirSources : Obligations.PedalsFollowTheirSources := by
  unfold Obligations.PedalsFollowTheirSources
  intro id p s hsettled r
  have hchange : ∀ f, changePedal p f s = setPedal p (s.pedalTakes p (f r)).1 { s with link := { s.link with sentDrive :=
      s.link.sentDrive ++ ((s.pedalTakes p (f r)).2.bind fun a => driveCmd (s.pedalWire p) a).toList } } := fun f => by
    rw [changePedal_eq]
    rfl
  refine ⟨fun b channel x => pedalWire_params, commandedDown_iff p s, towardDown_iff r, fun q => ?_, hchange, ?_⟩
  · cases p <;> rfl
  intro takes
  refine ⟨fun hready => ?requests, fun t hphase hend hreached => ?ends, fun hnot => ?idle⟩
  case requests =>
    have hrequest : ∀ (c : Instr) (f : PedalRec → PedalRec),
        request c id (fun t => (changePedal p f t, .ok)) s = .next (takes (f r)) := fun c f => by
      rw [request_changePedal hready hsettled, hchange]
    exact ⟨hrequest _ _, hrequest _ _, hrequest _ _, hrequest _ _⟩
  case ends =>
    rw [exec_engageEnd, ← endEngage_eq]
    exact timedEvent_settled ((engageEnd_due_iff p s).2 ⟨hphase, t, hend, hreached⟩) rfl (endEngage_settled hsettled p)
      (endEngage_flags p s)
  case idle =>
    refine timedEvent_idle (Bool.eq_false_iff.2 fun hdue => ?_) _ s
    obtain ⟨hphase, hend⟩ := (engageEnd_due_iff p s).1 hdue
    rcases hnot with hnot | hnot
    · exact hnot hphase
    · exact Bool.eq_false_iff.1 (not_reached_of hnot) ((reached_iff s _).2 hend)

end Sys2Proof.Machine

namespace Sys2Proof.Machine

/-! ### DISPATCH (R104) -/

theorem exec_dispatch (s : State) : exec .dispatch s = timedEvent s.headDue dispatchHead s := rfl

theorem takePedalUp_eq (p : Pedal) (tag : Tag) (s : State) : takePedalUp p tag s =
    if (s.pedal p).roll = true ∧ (s.pedal p).rollTag = some tag then
      changePedal p (fun q => { q with roll := false, rollTag := none }) s
    else s := by
  unfold takePedalUp
  simp only [Bool.and_eq_true, beq_iff_eq]

/-- Settles O41. -/
theorem dispatchHandsTheHeadRecord : Obligations.DispatchHandsTheHeadRecord := by
  unfold Obligations.DispatchHandsTheHeadRecord
  refine ⟨fun r t => ?_, fun s => ⟨fun r rest hqueue hplays hdue => ?_, fun hnot => ?_⟩⟩
  · obtain ⟨kind, tag, fire⟩ := r
    cases kind with
    | strike k v => rfl
    | release k => rfl
    | pedalDown p => rfl
    | pedalUp p => exact takePedalUp_eq p tag t
  · have hhead : s.headDue = true := (headDue_iff s).2 ⟨hplays, r.fire, by rw [hqueue]; rfl, hdue⟩
    have hdispatch : dispatchHead s = handRecord r { s with sched := { s.sched with queue := rest } } := by
      unfold dispatchHead
      rw [hqueue]
    rw [exec_dispatch, hhead, timedEvent_due, hdispatch]
  · refine timedEvent_idle (Bool.eq_false_iff.2 fun hhead => ?_) _ s
    obtain ⟨hplays, t, ht, hdue⟩ := (headDue_iff s).1 hhead
    rcases hnot with hpaused | hempty | ⟨r, rest, hqueue, hlater⟩
    · exact hplays hpaused
    · rw [hempty] at ht
      cases ht
    · rw [hqueue] at ht
      have hfire : r.fire = t := Option.some.inj ht
      omega

/-! ### The values of a strike (R75 to R77) -/

/-- A value read off the segment between two calibrated points (R76). -/
def segmentValue (i : Nat) (a b : CalPoint) (f : CalPoint → Nat) : Int :=
  f a + Int.tdiv (((f b : Int) - f a) * ((i : Int) - a.intensity)) ((b.intensity : Int) - a.intensity)

/-- The truncated share of a difference goes no further than the difference, so a value read off a segment lies between
its ends' values. -/
theorem tdiv_share_ge {d distance span : Int} (hdistance : 0 ≤ distance) (hspan : distance < span) :
    min 0 d ≤ Int.tdiv (d * distance) span := by
  have hpos : 0 < span := by omega
  rcases le_or_gt 0 d with hd | hd
  · have hshare : 0 ≤ Int.tdiv (d * distance) span := Int.tdiv_nonneg (mul_nonneg hd hdistance) hpos.le
    omega
  · have hneg : Int.tdiv (d * distance) span = -Int.tdiv (-d * distance) span := by
      rw [neg_mul, Int.neg_tdiv, neg_neg]
    have hshare : Int.tdiv (-d * distance) span ≤ -d := by
      rw [Int.tdiv_eq_ediv_of_nonneg (mul_nonneg (by omega) hdistance)]
      exact Int.ediv_le_of_le_mul hpos (by nlinarith)
    omega

theorem interpolate_eq {i : Nat} {a b : CalPoint} (f : CalPoint → Nat) (hlow : a.intensity ≤ i) (hhigh : i < b.intensity) :
    (interpolate (f a) (f b) (i - a.intensity) (b.intensity - a.intensity) : Int) = segmentValue i a b f := by
  have hshare := tdiv_share_ge (d := (f b : Int) - f a) (distance := (i : Int) - a.intensity)
    (span := (b.intensity : Int) - a.intensity) (by omega) (by omega)
  unfold interpolate segmentValue
  rw [Nat.cast_sub hlow, Nat.cast_sub (hlow.trans hhigh.le)]
  exact Int.toNat_of_nonneg (by omega)

/-- A strike has a width and a lead: the width as it is, the lead corrected and clamped (R77). -/
def hasWidthLead (s : State) (k : Key) (x : StrikeVals) (width lead : Int) : Prop :=
  (x.width : Int) = width ∧ (x.leadEff : Int) = max 1000 (min 60000 (lead + (s.key k).correction))

theorem strikeVals_has {s : State} {k : Key} {i : Nat} {width lead : Int}
    (hwidth : ((s.strike.calib[k].widthLead i).1 : Int) = width)
    (hlead : ((s.strike.calib[k].widthLead i).2 : Int) = lead) : hasWidthLead s k (s.strikeVals k i) width lead := by
  have heffective : ((effectiveLead (s.strike.calib[k].widthLead i).2 (s.key k).correction : Nat) : Int) =
      max 1000 (min 60000 (lead + (s.key k).correction)) := by
    unfold effectiveLead clampInt
    rw [hlead]
    omega
  exact ⟨hwidth, heffective⟩

/-- The points of a record whose intensities rise. -/
structure CalRec.Rises (r : CalRec) : Prop where
  first : r.p0.intensity < r.p1.intensity
  second : r.p1.intensity < r.p2.intensity
  third : r.p2.intensity < r.p3.intensity

theorem widthLead_below {r : CalRec} {i : Nat} (hi : i < r.p0.intensity) : r.widthLead i = (r.p0.width, r.p0.lead) :=
  if_pos hi.le

section
variable {r : CalRec} (h : r.Rises)
include h

theorem widthLead_above {i : Nat} (hi : r.p3.intensity ≤ i) : r.widthLead i = (r.p3.width, r.p3.lead) := by
  obtain ⟨h01, h12, h23⟩ := h
  unfold CalRec.widthLead
  rw [if_neg (by omega), if_pos hi]

theorem widthLead_third {i : Nat} (hlow : r.p2.intensity ≤ i) (hhigh : i < r.p3.intensity) :
    r.widthLead i = onSegment r.p2 r.p3 i := by
  obtain ⟨h01, h12, h23⟩ := h
  unfold CalRec.widthLead
  rw [if_neg (by omega), if_neg (by omega), if_pos hlow]

theorem widthLead_second {i : Nat} (hlow : r.p1.intensity ≤ i) (hhigh : i < r.p2.intensity) :
    r.widthLead i = onSegment r.p1 r.p2 i := by
  obtain ⟨h01, h12, h23⟩ := h
  unfold CalRec.widthLead
  rw [if_neg (by omega), if_neg (by omega), if_neg (by omega), if_pos hlow]

/-- At the first point itself the segment gives that point's values. -/
theorem widthLead_first {i : Nat} (hlow : r.p0.intensity ≤ i) (hhigh : i < r.p1.intensity) :
    r.widthLead i = onSegment r.p0 r.p1 i := by
  obtain ⟨h01, h12, h23⟩ := h
  unfold CalRec.widthLead
  rcases hlow.eq_or_lt with heq | hlt
  · rw [if_pos heq.ge, onSegment, interpolate, interpolate, heq]
    simp
  · rw [if_neg (by omega), if_neg (by omega), if_neg (by omega), if_neg (by omega)]
end

theorem strikeVals_between {s : State} {k : Key} {i : Nat} {a b : CalPoint} (hlow : a.intensity ≤ i)
    (hhigh : i < b.intensity) (h : s.strike.calib[k].widthLead i = onSegment a b i) :
    hasWidthLead s k (s.strikeVals k i) (segmentValue i a b (·.width)) (segmentValue i a b (·.lead)) :=
  strikeVals_has (by rw [h]; exact interpolate_eq (·.width) hlow hhigh) (by rw [h]; exact interpolate_eq (·.lead) hlow hhigh)

/-! ### The times of the records (R78 to R80, R92, R93) -/

theorem timeOf_of_not_mem {s : State} {line : Nat} (h : ∀ x ∈ s.intake.history, x.line ≠ line) :
    s.timeOf line = (s.intake.history.getLast?.map (·.time)).getD 0 := by
  have hnone : s.intake.history.find? (·.line == line) = none := List.find?_eq_none.2 fun x hx hline => h x hx (by simpa using hline)
  unfold State.timeOf
  rw [hnone]

theorem releaseTime_own {s : State} {k : Key} {line opening : Nat} {note : LastStrike}
    (hnote : s.strike.lastNotes[k] = some note) (htag : note.tag = ⟨.roll, opening⟩) :
    s.releaseTime k line opening = max (s.strikeTime line - s.strike.calib[k].rl) note.fire := by
  unfold State.releaseTime
  rw [hnote]
  exact if_pos htag

theorem releaseTime_other {s : State} {k : Key} {line opening : Nat}
    (h : ∀ note, s.strike.lastNotes[k] = some note → note.tag ≠ ⟨.roll, opening⟩) :
    s.releaseTime k line opening = s.strikeTime line - s.strike.calib[k].rl := by
  unfold State.releaseTime
  cases hnote : s.strike.lastNotes[k] with
  | none => rfl
  | some note => exact if_neg (h note hnote)

theorem pedalUpTime_own {s : State} {p : Pedal} {line opening : Nat} {note : LastDown}
    (hnote : (s.pedal p).lastDown = some note) (htag : note.tag.number = opening) :
    s.pedalUpTime p line opening = max (s.strikeTime line - s.pedalReleaseLead p) note.fire := by
  unfold State.pedalUpTime
  rw [hnote]
  exact if_pos htag

theorem pedalUpTime_other {s : State} {p : Pedal} {line opening : Nat}
    (h : ∀ note, (s.pedal p).lastDown = some note → note.tag.number ≠ opening) :
    s.pedalUpTime p line opening = s.strikeTime line - s.pedalReleaseLead p := by
  unfold State.pedalUpTime
  cases hnote : (s.pedal p).lastDown with
  | none => rfl
  | some note => exact if_neg (h note hnote)

/-- Settles O43. -/
theorem recordsCarryTheirTimes : Obligations.RecordsCarryTheirTimes := by
  unfold Obligations.RecordsCarryTheirTimes
  intro k p line opening s v strikeTime fire tag cal released down up segment has between
  refine ⟨rfl, fun before st after hhistory hline hbefore => timeOf_of_mem hhistory hline hbefore, timeOf_of_not_mem, rfl,
    fun i => ⟨rfl, rfl, fun h01 h12 h23 => ?_⟩, rfl, fun note hnote htag => ?_, fun hother => ?_, ?_,
    fun note hnote htag => ?_, fun hother => ?_⟩
  · have hrises : cal.Rises := ⟨h01, h12, h23⟩
    refine ⟨fun hi => ?_, fun hlow hhigh => ?_, fun hlow hhigh => ?_, fun hlow hhigh => ?_, fun hi => ?_⟩
    · exact strikeVals_has (by rw [widthLead_below hi]) (by rw [widthLead_below hi])
    · exact strikeVals_between hlow hhigh (widthLead_first hrises hlow hhigh)
    · exact strikeVals_between hlow hhigh (widthLead_second hrises hlow hhigh)
    · exact strikeVals_between hlow hhigh (widthLead_third hrises hlow hhigh)
    · exact strikeVals_has (by rw [widthLead_above hrises hi]) (by rw [widthLead_above hrises hi])
  · unfold requestRelease
    rw [releaseTime_own hnote htag]
    rfl
  · unfold requestRelease
    rw [releaseTime_other hother]
    rfl
  · cases p <;> rfl
  · unfold requestPedalUp
    rw [pedalUpTime_own hnote htag]
    cases p <;> rfl
  · unfold requestPedalUp
    rw [pedalUpTime_other hother]
    cases p <;> rfl

end Sys2Proof.Machine

namespace Sys2Proof.Machine

/-! ### The arbiter (R112, R113) -/

theorem keyBoardFree_iff (s : State) (k : Key) : s.keyBoardFree k = true ↔
    ∃ b c, s.keyWire k = some (b, c) ∧ (s.board b).inFlight < s.boardLimit b := by
  cases hwire : s.keyWire k with
  | none =>
    rw [keyBoardFree_of_no_wire hwire]
    exact iff_of_false nofun nofun
  | some w =>
    obtain ⟨b, c⟩ := w
    rw [keyBoardFree_of_wire hwire, boardFree_iff]
    exact ⟨fun h => ⟨b, c, rfl, h⟩, fun ⟨_, _, hw, h⟩ => by cases hw; exact h⟩

theorem arbiterPass_none_iff (s : State) : arbiterPass s = none ↔
    s.totalLimit ≤ s.sched.total ∨ ∀ e ∈ s.sched.deferral, s.keyBoardFree e.key = false := by
  have hfind : (s.sched.deferral.find? fun e => s.keyBoardFree e.key) = none ↔
      ∀ e ∈ s.sched.deferral, s.keyBoardFree e.key = false := by
    simp only [List.find?_eq_none, Bool.not_eq_true]
  rw [← hfind]
  unfold arbiterPass
  cases htotal : s.totalFree with
  | false =>
    have hfull : s.totalLimit ≤ s.sched.total := not_lt.1 fun h => by
      rw [(totalFree_iff s).2 h] at htotal
      cases htotal
    exact iff_of_true rfl (.inl hfull)
  | true =>
    rw [or_iff_right (not_le.2 ((totalFree_iff s).1 htotal))]
    cases s.sched.deferral.find? fun e => s.keyBoardFree e.key with
    | none => exact iff_of_true rfl rfl
    | some e => exact iff_of_false nofun nofun

theorem runArbiter_idle {s : State} (h : arbiterPass s = none) : runArbiter s = s := by
  rw [runArbiter_eq, h]

theorem arbiterPass_runArbiter (s : State) : arbiterPass (runArbiter s) = none := by
  refine arbitrate_done _ s ?_
  have hpending := pendingCount_le s
  unfold arbiterWork
  omega

/-- The first entry that could go is the one the arbiter takes. -/
theorem arbiterPass_first {s : State} {before after : List DeferralEntry} {e : DeferralEntry}
    (hsplit : s.sched.deferral = before ++ e :: after) (hbefore : ∀ x ∈ before, s.keyBoardFree x.key = false)
    (hgo : s.keyBoardFree e.key = true) (htotal : s.totalFree = true) : arbiterPass s =
      some (if s.late e.strike then dropEntry e s else pulseKey e.key e.strike (removeEntry e.key s)) := by
  have hfind : (s.sched.deferral.find? fun e => s.keyBoardFree e.key) = some e := by
    rw [hsplit, List.find?_append, List.find?_eq_none.2 fun x hx => by rw [hbefore x hx]; decide, Option.none_or,
      List.find?_cons_of_pos (p := fun x : DeferralEntry => s.keyBoardFree x.key) hgo]
  unfold arbiterPass
  rw [htotal, hfind]
  rfl

/-- No entry before the one taken is of the same key, which no slot is free for. -/
theorem removeEntry_first {s : State} {before after : List DeferralEntry} {e : DeferralEntry}
    (hsplit : s.sched.deferral = before ++ e :: after) (hbefore : ∀ x ∈ before, s.keyBoardFree x.key = false)
    (hgo : s.keyBoardFree e.key = true) :
    removeEntry e.key s = { s with sched := { s.sched with deferral := before ++ after } } := by
  have hother : ∀ x ∈ before, ¬(x.key == e.key) = true := fun x hx hkey => by
    have hsame := hbefore x hx
    rw [eq_of_beq hkey, hgo] at hsame
    cases hsame
  unfold removeEntry
  rw [hsplit, List.eraseP_append_right _ hother, List.eraseP_cons_of_pos (p := fun x : DeferralEntry => x.key == e.key) (beq_self_eq_true _)]

/-- A late entry is dropped: its key rests, and a pending strike of it joins the list. -/
theorem dropEntry_eq (e : DeferralEntry) (s : State) : dropEntry e s =
    let rested := restNotice e.key (countLate e.strike (removeEntry e.key s))
    match (s.key e.key).pending with
    | none => rested
    | some st => joinDeferral e.key st { rested with
        keys := rested.keys.set e.key { rested.key e.key with pending := none } } := by
  have hpending : ((restNotice e.key (countLate e.strike (removeEntry e.key s))).key e.key).pending =
      (s.key e.key).pending :=
    ((countLate_keepsPending _ _).trans (restNotice_keepsPending _ _)).pend e.key
  unfold dropEntry
  generalize restNotice e.key (countLate e.strike (removeEntry e.key s)) = u at hpending ⊢
  dsimp only
  rw [hpending]
  cases (s.key e.key).pending <;> rfl

/-- Settles O45: one pass of the arbiter by `arbiterPass`, which leaves none to make. -/
theorem arbiterServesTheDeferralList : Obligations.ArbiterServesTheDeferralList := by
  unfold Obligations.ArbiterServesTheDeferralList
  intro s canGo
  have hgo : ∀ (t : State) (e : DeferralEntry), t.keyBoardFree e.key = true ↔ canGo t e := fun t e => keyBoardFree_iff t e.key
  have hstays : ∀ {t : State} {e : DeferralEntry}, ¬canGo t e → t.keyBoardFree e.key = false := fun {t e} h =>
    Bool.eq_false_iff.2 (mt (hgo t e).1 h)
  have hnone : ∀ t : State, arbiterPass t = none ↔ t.totalLimit ≤ t.sched.total ∨ ∀ e ∈ t.sched.deferral, ¬canGo t e :=
    fun t => by simp only [arbiterPass_none_iff, ← hgo, Bool.not_eq_true]
  refine ⟨rfl, fun e => ?_, fun tag cause => endProbe_eq tag cause s, fun hfull => ?_, fun hno => ?_,
    fun before e after hsplit hbefore hcan htotal => ?_, (hnone _).1 (arbiterPass_runArbiter s)⟩
  · rw [← hgo, ← totalFree_iff]
    exact Bool.and_eq_true_iff
  · exact runArbiter_idle ((hnone s).2 (.inl hfull))
  · exact runArbiter_idle ((hnone s).2 (.inr hno))
  · intro taken rested dropped
    have hfirst := arbiterPass_first hsplit (fun x hx => hstays (hbefore x hx)) ((hgo s e).2 hcan) ((totalFree_iff s).2 htotal)
    have htaken : removeEntry e.key s = taken := removeEntry_first hsplit (fun x hx => hstays (hbefore x hx)) ((hgo s e).2 hcan)
    have hdropped : dropEntry e s = dropped := by
      have h := dropEntry_eq e s
      rw [htaken] at h
      exact h
    rw [hdropped, htaken] at hfirst
    rw [runArbiter_eq, hfirst]
    refine congrArg runArbiter ?_
    unfold State.late
    simp only [decide_eq_true_eq]

end Sys2Proof.Machine

namespace Sys2Proof.Machine

/-! ### PULSE_END (R123) -/

theorem exec_pulseEnd (k : Key) (s : State) : exec (.pulseEnd k) s =
    timedEvent ((s.key k).phase = .striking && s.reached (s.key k).pulseEnd) (endPulse k) s := rfl

theorem pulseEnd_due_iff (k : Key) (s : State) :
    (decide ((s.key k).phase = .striking) && s.reached (s.key k).pulseEnd) = true ↔
      (s.key k).phase = .striking ∧ ∃ t, (s.key k).pulseEnd = some t ∧ t ≤ s.clock.actionTime := by
  rw [Bool.and_eq_true, decide_eq_true_iff, reached_iff]

theorem holdDuty_of_wire {s : State} {k : Key} {b : Board} {channel : Nat} {x : BoardParams}
    (hwire : s.keyWire k = some (b, channel)) (hparams : (s.board b).params = some x) : s.holdDuty k = x.holdDuty := by
  simp [State.holdDuty, hwire, hparams]

theorem holdLimitTime_of_profile {s : State} {p : Profile} (h : s.port.profile = some p) :
    s.holdLimitTime = p.holdLimit * 1000000 := by
  simp [State.holdLimitTime, h]

theorem dropSlot_of_wire {k : Key} {s : State} {b : Board} {c : Nat} (h : s.keyWire k = some (b, c)) :
    dropSlot k s = { s with
      sched := { s.sched with total := s.sched.total - 1 }
      port := { s.port with boards := s.port.boards.set b { s.board b with inFlight := (s.board b).inFlight - 1 } } } := by
  unfold dropSlot
  rw [h]
  rfl

theorem afterPulse_eq (k : Key) (u : State) : afterPulse k u =
    if (u.key k).relWait then
      { u with
        keys := u.keys.set k { u.key k with
          phase := .releasing, relWait := false, pulseEnd := none, holdLimit := none
          returnTimer := some (u.returnTimerFor k) }
        link := { u.link with sentDrive := u.link.sentDrive ++ (driveCmd (u.keyWire k) .off).toList } }
    else
      { u with
        keys := u.keys.set k { u.key k with phase := .held, holdLimit := some (u.expiry u.holdLimitTime) }
        link := { u.link with
          sentDrive := u.link.sentDrive ++ (driveCmd (u.keyWire k) (.hold (u.holdDuty k))).toList } } := rfl

/-- Settles O47. -/
theorem pulseEndFreesTheSlot : Obligations.PulseEndFreesTheSlot := by
  unfold Obligations.PulseEndFreesTheSlot
  intro k s
  refine ⟨fun b channel x => holdDuty_of_wire, fun p => holdLimitTime_of_profile,
    fun t b c hphase hend hreached hwire => ?ends, fun hnot => ?idle⟩
  case ends =>
    intro freed u r after
    have hfreed : dropSlot k (updateKey k (fun r => { r with pulseEnd := none }) s) = freed :=
      dropSlot_of_wire (s := updateKey k (fun r => { r with pulseEnd := none }) s) hwire
    have hact : endPulse k s = after := by
      unfold endPulse
      rw [hfreed]
      exact afterPulse_eq k u
    refine ⟨?_, fun hempty => ?_⟩
    · rw [exec_pulseEnd, (pulseEnd_due_iff k s).2 ⟨hphase, t, hend, hreached⟩, timedEvent_due, hact]
    · have hrun : runArbiter freed = freed := runArbiter_empty hempty
      show (if s.perf.state = .paused then freed else runArbiter freed) = freed
      rw [hrun, ite_self]
  case idle =>
    refine timedEvent_idle (Bool.eq_false_iff.2 fun hdue => ?_) _ s
    obtain ⟨hphase, hend⟩ := (pulseEnd_due_iff k s).1 hdue
    rcases hnot with hnot | hnot
    · exact hnot hphase
    · exact Bool.eq_false_iff.1 (not_reached_of hnot) ((reached_iff s _).2 hend)

end Sys2Proof.Machine

namespace Sys2Proof.Machine

/-! ### HOLD_LIMIT and RETURN_TIMER (R126, R127, R129) -/

theorem exec_holdLimit (k : Key) (s : State) : exec (.holdLimit k) s =
    timedEvent ((s.key k).phase = .held && s.reached (s.key k).holdLimit) (fun s => raise .holdExpired (letGo k s)) s := rfl

theorem exec_returnTimer (k : Key) (s : State) : exec (.returnTimer k) s =
    timedEvent ((s.key k).phase = .releasing && s.reached ((s.key k).returnTimer.map (·.1))) (endReturn k) s := rfl

theorem returnTimerFor_of_profile {s : State} {p : Profile} (h : s.port.profile = some p) (k : Key) :
    s.returnTimerFor k =
      if p.keys[k].sensor then (min 281474976710655 (s.clock.actionTime + p.returnTimeout * 1000), .timeout)
      else (min 281474976710655 (s.clock.actionTime + p.returnTime * 1000), .fixed) := by
  simp only [State.returnTimerFor, State.hasSensor, h, Option.any_some, Option.map_some, Option.getD_some, State.expiry,
    maxTime]

theorem letGo_key (k : Key) (s : State) : (letGo k s).key k = (s.key k).releasing (sendKey k .off s) k := by
  unfold letGo updateKey
  rw [key_setKey, if_pos rfl]
  rfl

/-- A key let go is RELEASING, so nothing has drained and no key has come to rest. -/
theorem letGo_settled {s : State} (h : s.settled) (k : Key) : (letGo k s).settled := by
  have hphase : ((letGo k s).key k).phase = .releasing := by
    rw [letGo_key]
    rfl
  refine ⟨fun _ => Bool.eq_false_iff.2 fun hdrained => ?_, fun hmismatch => ?_⟩
  · obtain ⟨-, -, hkeys⟩ := (drained_iff _).1 hdrained
    rcases (hkeys k).2 with hrest | hoff
    · exact nomatch hrest.symm.trans hphase
    · exact nomatch hoff.symm.trans hphase
  · obtain ⟨j, hrest, hdiffers⟩ := (anyMismatch_iff _).1 hmismatch
    have hj : j ≠ k := fun hjk => by
      rw [hjk] at hrest
      exact nomatch hrest.symm.trans hphase
    have hkey : (letGo k s).key j = s.key j := by
      unfold letGo updateKey
      rw [key_setKey, if_neg hj]
      rfl
    rw [hkey] at hrest hdiffers
    exact h.2 ((anyMismatch_iff s).2 ⟨j, hrest, hdiffers⟩)

theorem raise_settled {s : State} (h : s.settled) (f : Flag) : (raise f s).settled :=
  settled_congr h rfl rfl rfl fun htouch => by rw [flag_raise, htouch]; rfl

/-- A return given up is counted and flagged (R129). -/
theorem recordReturn_timeout (k : Key) (s : State) : recordReturn k .timeout s = raise .sensorFault { s with
    keys := s.keys.set k { s.key k with missedRest := min 255 ((s.key k).missedRest + 1), faultFlag := true } } := rfl

theorem recordReturn_fixed (k : Key) (s : State) : recordReturn k .fixed s = s := rfl

theorem endReturn_eq {k : Key} {s : State} {t : Nat} {kind : TimerKind} (h : (s.key k).returnTimer = some (t, kind)) :
    endReturn k s = keyRests k (recordReturn k kind s) := by
  unfold endReturn
  rw [h]

theorem reached_map_iff {s : State} {timer : Option (Nat × TimerKind)} : s.reached (timer.map (·.1)) = true ↔
    ∃ t kind, timer = some (t, kind) ∧ t ≤ s.clock.actionTime := by
  cases timer with
  | none => exact iff_of_false nofun nofun
  | some x =>
    obtain ⟨t, kind⟩ := x
    simp [State.reached]

theorem returnTimer_due_iff (k : Key) (s : State) :
    (decide ((s.key k).phase = .releasing) && s.reached ((s.key k).returnTimer.map (·.1))) = true ↔
      (s.key k).phase = .releasing ∧ ∃ t kind, (s.key k).returnTimer = some (t, kind) ∧ t ≤ s.clock.actionTime := by
  rw [Bool.and_eq_true, decide_eq_true_iff, reached_map_iff]

/-- A return timer that is due brings its key to rest, as its kind says. -/
theorem exec_returnTimer_due {k : Key} {s : State} {t : Nat} {kind : TimerKind} (hphase : (s.key k).phase = .releasing)
    (htimer : (s.key k).returnTimer = some (t, kind)) (hreached : t ≤ s.clock.actionTime) :
    exec (.returnTimer k) s = .next ((settle (keyRests k (recordReturn k kind s))).ended s.mgmt.flags) := by
  rw [exec_returnTimer, (returnTimer_due_iff k s).2 ⟨hphase, t, kind, htimer, hreached⟩, timedEvent_due, endReturn_eq htimer]

/-- Settles O48. -/
theorem keyTimersRunOut : Obligations.KeyTimersRunOut := by
  unfold Obligations.KeyTimersRunOut
  intro k s hsettled r
  refine ⟨fun p h => returnTimerFor_of_profile h k, fun t hphase hlimit hreached => ?limit,
    fun t hphase htimer hreached => ?timeout, fun t hphase htimer hreached => ?fixed, fun hnot => ?heldOn,
    fun hnot => ?returnsOn⟩
  case limit =>
    have hdue : (decide ((s.key k).phase = .held) && s.reached (s.key k).holdLimit) = true := by
      rw [Bool.and_eq_true, decide_eq_true_iff, reached_iff]
      exact ⟨hphase, t, hlimit, hreached⟩
    rw [exec_holdLimit, hdue, timedEvent_due, settle_of_settled (raise_settled (letGo_settled hsettled k) _)]
    rfl
  case timeout =>
    have h := exec_returnTimer_due hphase htimer hreached
    rw [recordReturn_timeout] at h
    exact h
  case fixed =>
    have h := exec_returnTimer_due hphase htimer hreached
    rw [recordReturn_fixed] at h
    exact h
  case heldOn =>
    rw [exec_holdLimit]
    refine timedEvent_idle (Bool.eq_false_iff.2 fun hdue => ?_) _ s
    rw [Bool.and_eq_true, decide_eq_true_iff] at hdue
    rcases hnot with hnot | hnot
    · exact hnot hdue.1
    · exact Bool.eq_false_iff.1 (not_reached_of hnot) hdue.2
  case returnsOn =>
    rw [exec_returnTimer]
    refine timedEvent_idle (Bool.eq_false_iff.2 fun hdue => ?_) _ s
    obtain ⟨hphase, t, kind, htimer, hreached⟩ := (returnTimer_due_iff k s).1 hdue
    rcases hnot with hnot | hnot | ⟨u, x, hu, hlt⟩
    · exact hnot hphase
    · exact nomatch hnot.symm.trans htimer
    · have hut : (u, x) = (t, kind) := Option.some.inj (hu.symm.trans htimer)
      cases hut
      omega

end Sys2Proof.Machine

namespace Sys2Proof.Machine

/-! ### STRIKE reports (R154, R155, R160, R162) -/

theorem exec_strikeReport {board : BitVec 4} {channel : Byte} {k : Key} {s : State} (measured : BitVec 16)
    (h : s.reportKey board channel = some k) : exec (.strikeReport board channel measured) s =
      .next ((settle (takeStrikeReport k measured.toNat s)).ended s.mgmt.flags) := by
  have harm : exec (.strikeReport board channel measured) s = execStrikeReport board channel measured s := rfl
  rw [harm, execStrikeReport, h, finishEvent, dueNotice_eq]

theorem hasSensor_iff (s : State) (k : Key) :
    s.hasSensor k = true ↔ ∃ p, s.port.profile = some p ∧ p.keys[k].sensor = true := by
  simp [State.hasSensor, Option.any_eq_true]

/-! #### The observed state -/

/-- What a key's state is observed as when a strike is reported (R162). -/
def strikeObserved (r : KeyRec) (sensor : Bool) : Position :=
  if (r.phase = .resting ∧ sensor = false) ∨ r.phase = .offline then r.observed else .down

theorem observeStrike_eq (k : Key) (s : State) : observeStrike k s =
    updateKey k (fun r => { r with observed := strikeObserved r (s.hasSensor k) }) s := by
  have hsame : ((s.key k).phase = .resting ∧ s.hasSensor k = false) ∨ (s.key k).phase = .offline →
      updateKey k (fun r => { r with observed := strikeObserved r (s.hasSensor k) }) s = s := fun h => by
    unfold updateKey strikeObserved
    dsimp only
    rw [if_pos h]
    exact setKey_key k s
  have hdown : ¬(((s.key k).phase = .resting ∧ s.hasSensor k = false) ∨ (s.key k).phase = .offline) →
      updateKey k (fun r => { r with observed := strikeObserved r (s.hasSensor k) }) s =
        updateKey k (fun r => { r with observed := .down }) s := fun h => by
    unfold updateKey strikeObserved
    dsimp only
    rw [if_neg h]
  unfold observeStrike
  cases hphase : (s.key k).phase with
  | resting =>
    cases hsensor : s.hasSensor k with
    | false => exact (hsensor ▸ hsame (.inl ⟨hphase, hsensor⟩)).symm
    | true => exact (hsensor ▸ hdown (by simp [hphase, hsensor])).symm
  | offline => exact (hsame (.inr hphase)).symm
  | deferred | striking | held | releasing => exact (hdown (by simp [hphase])).symm

/-- A key that is driven or on its way back. -/
def KeyRec.moving (r : KeyRec) : Prop := r.phase = .striking ∨ r.phase = .held ∨ r.phase = .releasing

theorem strikeObserved_moving {r : KeyRec} (h : r.moving) (sensor : Bool) : strikeObserved r sensor = .down := by
  unfold strikeObserved
  rcases h with h | h | h <;> simp [h]

theorem observeStrike_moving {k : Key} {s : State} (h : (s.key k).moving) :
    observeStrike k s = updateKey k (fun r => { r with observed := .down }) s := by
  rw [observeStrike_eq]
  unfold updateKey
  dsimp only
  rw [strikeObserved_moving h]

/-! #### What an error comes to -/

/-- The correction that a key has after an error within the limit (R155). -/
def errorCorrection (k : Key) (e : Int) (s : State) : Int :=
  if s.calib.globalAdapt = true ∧ (s.key k).adapt = .active then
    max (-4000) (min 4000 ((s.key k).correction + Int.fdiv e (2 ^ s.calib.adaptParam[1] : Nat)))
  else (s.key k).correction

theorem takeError_eq (k : Key) (e : Int) (s : State) :
    takeError k e (updateKey k (fun r => { r with strikeSeen := true }) s) =
      setKey k { s.key k with strikeSeen := true, outlierRun := 0, correction := errorCorrection k e s } s := by
  have hshift : Int.fdiv e (2 ^ s.calib.adaptParam[1] : Nat) = e / (2 ^ s.adaptShift : Nat) :=
    Int.fdiv_eq_ediv_of_nonneg e (Int.natCast_nonneg _)
  unfold takeError errorCorrection
  rw [hshift]
  unfold updateKey
  rw [key_setKey_self, setKey_setKey]
  simp only [setKey_calib, Bool.and_eq_true, decide_eq_true_eq]
  rfl

theorem takeOutlier_eq (k : Key) (s : State) :
    let r := s.key k
    let run := min 3 (r.outlierRun + 1)
    takeOutlier k (updateKey k (fun r => { r with strikeSeen := true }) s) =
      raiseIf (run == 3) .sensorFault (count .outliers (setKey k { r with
        strikeSeen := true, outlierRun := run
        adapt := if run = 3 then .frozen else r.adapt
        faultFlag := r.faultFlag || run == 3 } s)) := by
  intro r run
  have hseen : updateKey k (fun r => { r with strikeSeen := true }) s = setKey k { r with strikeSeen := true } s := rfl
  have hcounted : ∀ q, updateKey k (fun r => { r with outlierRun := run }) (count .outliers (setKey k q s)) =
      setKey k { q with outlierRun := run } (count .outliers s) := fun q => updateKey_setKey k _ q (count .outliers s)
  have hfrozen := freeze_eq (run == 3) k (setKey k { r with strikeSeen := true, outlierRun := run } (count .outliers s))
  rw [updateKey_setKey] at hfrozen
  simp only [beq_iff_eq] at hfrozen
  unfold takeOutlier
  rw [hseen, key_setKey_self]
  exact (congrArg (freeze (run == 3) k) (hcounted _)).trans hfrozen

/-! #### The end of a probe -/

/-- The probe's record as its strike is measured (R160). -/
def ProbeRec.measuredBy (p : ProbeRec) (m : Nat) (e c : Int) : ProbeRec :=
  { p with busy := false, result := some (.measured m), endCause := some .report, error := some e, corrAfter := some c }

/-- A measured probe's state, when the articulation is that of the busy probe. -/
def probeMeasured (busy : Bool) (m : Nat) (e c : Int) (t : State) : State :=
  if busy then
    raise .probeDone { t with calib := { t.calib with probe := t.calib.probe.map fun p => p.measuredBy m e c } }
  else t

theorem updateKey_probeMeasured (k : Key) (f : KeyRec → KeyRec) (busy : Bool) (m : Nat) (e c : Int) (t : State) :
    updateKey k f (probeMeasured busy m e c t) = probeMeasured busy m e c (updateKey k f t) := by
  cases busy <;> rfl

theorem probeMeasured_key (busy : Bool) (m : Nat) (e c : Int) (t : State) (k : Key) :
    (probeMeasured busy m e c t).key k = t.key k := by
  cases busy <;> rfl

/-- The end of a probe that is known to be busy. -/
theorem finishProbe_busy {s : State} {tag : Option Tag} (h : s.isBusyProbe tag = true) (f : ProbeRec → ProbeRec) :
    finishProbe f s = raise .probeDone { s with calib := { s.calib with
      probe := s.calib.probe.map fun p => f { p with busy := false } } } := by
  obtain ⟨p, hprobe, hbusy, -⟩ := (isBusyProbe_iff s tag).1 h
  unfold finishProbe
  rw [hprobe]
  dsimp only
  rw [if_pos hbusy]
  rfl

/-- What a measurement comes to, given what its error comes to. -/
theorem takeMeasurement_eq {k : Key} {m : Nat} {s judged : State} {e : Int}
    (he : e = (m : Int) - (((s.key k).expLead.getD 0 : Nat) : Int))
    (hjudged : (if s.outlierLimit < e.natAbs then takeOutlier k (updateKey k (fun r => { r with strikeSeen := true }) s)
      else takeError k e (updateKey k (fun r => { r with strikeSeen := true }) s)) = judged)
    (hcalib : judged.calib = s.calib) :
    takeMeasurement k m s = probeMeasured (s.isBusyProbe (s.key k).current) m e (judged.key k).correction judged := by
  have hsame : judged.isBusyProbe (s.key k).current = s.isBusyProbe (s.key k).current := by
    unfold State.isBusyProbe
    rw [hcalib]
  unfold takeMeasurement probeMeasured
  dsimp only
  rw [← he, hjudged]
  cases hbusy : s.isBusyProbe (s.key k).current with
  | false => rfl
  | true =>
    rw [if_pos rfl, if_pos rfl]
    exact finishProbe_busy (hsame.trans hbusy) _

/-! #### The classes of reports -/

theorem isEndedProbe_iff (s : State) (tag : Option Tag) :
    s.isEndedProbe tag = true ↔ (∃ n, tag = some ⟨.probe, n⟩) ∧ s.isBusyProbe tag = false := by
  unfold State.isEndedProbe
  rw [Bool.and_eq_true, Bool.not_eq_true', Option.any_eq_true]
  refine and_congr_left fun _ => ⟨?_, ?_⟩
  · rintro ⟨⟨origin, n⟩, htag, horigin⟩
    have hprobe : origin = .probe := eq_of_beq horigin
    exact ⟨n, by rw [htag, hprobe]⟩
  · rintro ⟨n, htag⟩
    exact ⟨_, htag, rfl⟩

/-- A key whose own strike is in the air: it was pulsed, and is driven or on its way back. -/
def KeyRec.inAir (r : KeyRec) : Prop := r.moving ∧ r.pulseSent = true

/-- What a report comes to before the key's state is observed. -/
def strikeJudged (k : Key) (m : Nat) (s : State) : State :=
  if (s.key k).cutShort || s.isEndedProbe (s.key k).current then updateKey k (fun r => { r with strikeSeen := true }) s
  else takeMeasurement k m s

theorem takeStrikeReport_first {k : Key} {s : State} (m : Nat) (hair : (s.key k).inAir)
    (hseen : (s.key k).strikeSeen = false) : takeStrikeReport k m s = observeStrike k (strikeJudged k m s) := by
  obtain ⟨hmoving, hsent⟩ := hair
  unfold takeStrikeReport
  dsimp only
  rcases hmoving with hphase | hphase | hphase
  all_goals
    rw [hphase, hsent, hseen]
    rfl

theorem takeStrikeReport_other {k : Key} {s : State} (m : Nat)
    (h : ¬(s.key k).inAir ∨ (s.key k).strikeSeen = true) : takeStrikeReport k m s = observeStrike k s := by
  have hclosed : (s.key k).moving → ((s.key k).pulseSent && !(s.key k).strikeSeen) = false := fun hmoving => by
    rcases h with hair | hseen
    · cases hsent : (s.key k).pulseSent with
      | false => rfl
      | true => exact absurd ⟨hmoving, hsent⟩ hair
    · rw [hseen]
      exact Bool.and_false _
  unfold takeStrikeReport
  dsimp only
  cases hphase : (s.key k).phase with
  | resting | deferred | offline => rfl
  | striking =>
    rw [hclosed (.inl hphase)]
    rfl
  | held =>
    rw [hclosed (.inr (.inl hphase))]
    rfl
  | releasing =>
    rw [hclosed (.inr (.inr hphase))]
    rfl

section
variable {k : Key} {s : State} (hair : (s.key k).inAir) (hseen : (s.key k).strikeSeen = false)
include hair hseen

theorem takeStrikeReport_cut (m : Nat) (h : (s.key k).cutShort = true ∨ s.isEndedProbe (s.key k).current = true) :
    takeStrikeReport k m s = setKey k { s.key k with observed := .down, strikeSeen := true } s := by
  have hjudged : strikeJudged k m s = setKey k { s.key k with strikeSeen := true } s :=
    if_pos (Bool.or_eq_true_iff.2 h)
  rw [takeStrikeReport_first m hair hseen, hjudged, observeStrike_moving, updateKey_setKey]
  rw [key_setKey_self]
  exact hair.1

/-- A measured report: what the error comes to, with the key seen down and the probe ended. -/
theorem takeStrikeReport_measured {m : Nat} {judged : State} {e : Int} (hcut : (s.key k).cutShort = false)
    (hended : s.isEndedProbe (s.key k).current = false)
    (he : e = (m : Int) - (((s.key k).expLead.getD 0 : Nat) : Int))
    (hjudged : (if s.outlierLimit < e.natAbs then takeOutlier k (updateKey k (fun r => { r with strikeSeen := true }) s)
      else takeError k e (updateKey k (fun r => { r with strikeSeen := true }) s)) = judged)
    (hcalib : judged.calib = s.calib) (hphase : (judged.key k).phase = (s.key k).phase) :
    takeStrikeReport k m s = probeMeasured (s.isBusyProbe (s.key k).current) m e (judged.key k).correction
      (updateKey k (fun r => { r with observed := .down }) judged) := by
  have hmeasured : strikeJudged k m s = takeMeasurement k m s := if_neg (by rw [hcut, hended]; decide)
  rw [takeStrikeReport_first m hair hseen, hmeasured, takeMeasurement_eq he hjudged hcalib, observeStrike_moving,
    updateKey_probeMeasured]
  rw [probeMeasured_key]
  unfold KeyRec.moving
  rw [hphase]
  exact hair.1
end

end Sys2Proof.Machine

namespace Sys2Proof.Machine

/-- A report whose error is within the limit (R155). -/
theorem takeStrikeReport_within {k : Key} {s : State} {m : Nat} {e : Int} (hair : (s.key k).inAir)
    (hseen : (s.key k).strikeSeen = false) (hcut : (s.key k).cutShort = false)
    (hended : s.isEndedProbe (s.key k).current = false)
    (he : e = (m : Int) - (((s.key k).expLead.getD 0 : Nat) : Int)) (hlimit : e.natAbs ≤ s.calib.adaptParam[0]) :
    takeStrikeReport k m s = probeMeasured (s.isBusyProbe (s.key k).current) m e (errorCorrection k e s)
      (setKey k { s.key k with
        observed := .down, strikeSeen := true, outlierRun := 0, correction := errorCorrection k e s } s) := by
  have hstrike := takeStrikeReport_measured hair hseen hcut hended he
    ((if_neg (not_lt.2 hlimit)).trans (takeError_eq k e s)) rfl (by rw [key_setKey_self])
  rw [key_setKey_self, updateKey_setKey] at hstrike
  exact hstrike

/-- A report whose error is beyond the limit: an outlier (R155). -/
theorem takeStrikeReport_outlier {k : Key} {s : State} {m : Nat} {e : Int} (hair : (s.key k).inAir)
    (hseen : (s.key k).strikeSeen = false) (hcut : (s.key k).cutShort = false)
    (hended : s.isEndedProbe (s.key k).current = false)
    (he : e = (m : Int) - (((s.key k).expLead.getD 0 : Nat) : Int)) (hlimit : s.calib.adaptParam[0] < e.natAbs) :
    let run := min 3 ((s.key k).outlierRun + 1)
    takeStrikeReport k m s = probeMeasured (s.isBusyProbe (s.key k).current) m e (s.key k).correction
      (raiseIf (run == 3) .sensorFault (count .outliers (setKey k { s.key k with
        observed := .down, strikeSeen := true, outlierRun := run
        adapt := if run = 3 then .frozen else (s.key k).adapt
        faultFlag := (s.key k).faultFlag || run == 3 } s))) := by
  intro run
  have hkey : ∀ q, (raiseIf (run == 3) .sensorFault (count .outliers (setKey k q s))).key k = q := fun q => by
    rw [key_congr (raiseIf_keys _ _ _), key_congr (count_keys _ _), key_setKey_self]
  have hcalib : ∀ q, (raiseIf (run == 3) .sensorFault (count .outliers (setKey k q s))).calib = s.calib := fun q => by
    rw [raiseIf_calib, count_calib, setKey_calib]
  have hstrike := takeStrikeReport_measured hair hseen hcut hended he
    ((if_pos hlimit).trans (takeOutlier_eq k s)) (hcalib _) (by rw [hkey])
  have hdown : ∀ q, updateKey k (fun r => { r with observed := .down }) (count .outliers (setKey k q s)) =
      count .outliers (setKey k { q with observed := .down } s) := fun q =>
    congrArg (count .outliers) (updateKey_setKey k (fun r => { r with observed := .down }) q s)
  rw [hkey, updateKey_raiseIf, hdown] at hstrike
  exact hstrike

/-- Settles O50: a report is the first of its articulation or not, and a first one measures, or is only seen. -/
theorem strikeReportsAreClassified : Obligations.StrikeReportsAreClassified := by
  unfold Obligations.StrikeReportsAreClassified
  intro board channel measured k s hreport r seen keyed e limit run inAir ended corrected probed
  refine ⟨hasSensor_iff s k, ?_⟩
  intro taken
  have htaken : ∀ t, takeStrikeReport k measured.toNat s = t → taken t := fun t ht =>
    (exec_strikeReport measured hreport).trans (by rw [ht])
  have hdown : r.inAir → seen = { r with observed := .down } := fun hair =>
    congrArg (fun o => { r with observed := o }) (strikeObserved_moving hair.1 (s.hasSensor k))
  have hrunning : ¬ended → s.isEndedProbe r.current = false := fun h =>
    Bool.eq_false_iff.2 (mt (isEndedProbe_iff s r.current).1 h)
  refine ⟨fun hair hfirst hcut hended hlimit => htaken _ ?_, fun hair hfirst hcut hended hlimit => htaken _ ?_,
    fun hair hfirst hcut => htaken _ ?_, fun hother => htaken _ ?_⟩
  · rw [hdown hair]
    exact takeStrikeReport_within hair hfirst hcut (hrunning hended) rfl hlimit
  · rw [hdown hair]
    exact takeStrikeReport_outlier hair hfirst hcut (hrunning hended) rfl hlimit
  · rw [hdown hair]
    exact takeStrikeReport_cut hair hfirst _ (hcut.imp id (isEndedProbe_iff s r.current).2)
  · exact (takeStrikeReport_other _ hother).trans (observeStrike_eq k s)

end Sys2Proof.Machine

namespace Sys2Proof.Machine

/-! ### The probe that a disable ends (R134, R160) -/

/-- A disable of a board removes a strike of a tag: its key's articulation, its pending strike or its entry. -/
def State.removesStrike (s : State) (b : Board) (tag : Tag) : Prop := ∃ k, s.onLine b k = true ∧
  (((s.key k).phase ≠ .resting ∧ (s.key k).current = some tag) ∨
    (∃ st, (s.key k).pending = some st ∧ st.tag = tag) ∨ ∃ e ∈ s.sched.deferral, e.key = k ∧ e.strike.tag = tag)

/-- A disable of a board ends the busy probe. -/
def State.probeGoes (s : State) (b : Board) : Prop :=
  ∃ p, s.calib.probe = some p ∧ p.busy = true ∧ s.removesStrike b ⟨.probe, p.serial⟩

theorem mem_liveTags_iff (s : State) (k : Key) (tag : Tag) : some tag ∈ s.liveTags k ↔
    ((s.key k).phase ≠ .resting ∧ (s.key k).current = some tag) ∨
      (∃ st, (s.key k).pending = some st ∧ st.tag = tag) ∨ ∃ e ∈ s.sched.deferral, e.key = k ∧ e.strike.tag = tag := by
  have hcurrent : (some tag = if (s.key k).phase = .resting then none else (s.key k).current) ↔
      (s.key k).phase ≠ .resting ∧ (s.key k).current = some tag := by
    split_ifs with hrest <;> simp [hrest, eq_comm]
  have hpending : some tag = (s.key k).pending.map (·.tag) ↔ ∃ st, (s.key k).pending = some st ∧ st.tag = tag := by
    rw [eq_comm, Option.map_eq_some_iff]
  have hentry : (some tag ∈ (s.sched.deferral.filter fun e => e.key == k).map fun e => some e.strike.tag) ↔
      ∃ e ∈ s.sched.deferral, e.key = k ∧ e.strike.tag = tag := by
    simp [and_assoc]
  unfold State.liveTags
  rw [List.mem_cons, List.mem_cons, hcurrent, hpending, hentry]

theorem probeGoes_iff (s : State) (b : Board) :
    (allKeys.any fun k => s.onLine b k && (s.liveTags k).any s.isBusyProbe) = true ↔ s.probeGoes b := by
  rw [any_allKeys]
  simp only [Bool.and_eq_true, List.any_eq_true, isBusyProbe_iff]
  constructor
  · rintro ⟨k, hline, tag, hmem, p, hprobe, hbusy, rfl⟩
    exact ⟨p, hprobe, hbusy, k, hline, (mem_liveTags_iff s k _).1 hmem⟩
  · rintro ⟨p, hprobe, hbusy, k, hline, hlive⟩
    exact ⟨k, hline, _, (mem_liveTags_iff s k _).2 hlive, p, hprobe, hbusy, rfl⟩

/-- The state with its busy probe ended by a disable. -/
def State.probeDisabled (s : State) : State :=
  raise .probeDone { s with calib := { s.calib with probe := s.calib.probe.map fun p =>
    { p with busy := false, result := some .none, endCause := some .disable } } }

theorem endRemovedProbes_gone {s : State} {b : Board} (h : s.probeGoes b) : endRemovedProbes b s = s.probeDisabled := by
  have hbusy : s.probeBusy = true := by
    obtain ⟨p, hprobe, hbusy, -⟩ := h
    unfold State.probeBusy
    rw [hprobe]
    exact hbusy
  obtain ⟨p, hprobe, hp, -⟩ := id h
  have hend : endRemovedProbes b s = abandonProbe .disable s := if_pos ((probeGoes_iff s b).2 h)
  rw [hend]
  unfold abandonProbe finishProbe State.probeDisabled
  rw [hprobe]
  dsimp only
  rw [if_pos hp]
  rfl

theorem endRemovedProbes_kept {s : State} {b : Board} (h : ¬s.probeGoes b) : endRemovedProbes b s = s :=
  if_neg (mt (probeGoes_iff s b).1 h)

/-! ### The disable of a board (R146) -/

/-- OFF goes to the driven targets of a board (R146 step 2). -/
def boardOffs (b : Board) (s : State) : List DriveCmd :=
  offKeys (fun k r => s.keyOnBoard k b && (r.phase = .striking || r.phase = .held)) s ++
    offPedals (fun p r => s.pedalOnBoard p b && (r.phase = .engaging || r.phase = .down)) s

theorem boardOffs_eq (b : Board) (s : State) : boardOffs b s = offKeys (fun k r => s.keyOnBoard k b && r.driven) s ++
    offPedals (fun p r => s.pedalOnBoard p b && r.driven) s := by
  unfold boardOffs KeyRec.driven PedalRec.driven
  simp only [Bool.decide_or]

/-- A disabled board, on what its disable leaves of the probe and of the Management Unit, up to the freeing of its
slots. -/
def boardOut (b : Board) (reason : DisableReason) (fault : Option FaultReason) (s begun : State) : State :=
  { countBy (s.removedStrikes b) .offlineDiscards begun with
    sched := { s.sched with
      deferral := s.sched.deferral.filter fun e => !s.onLine b e.key
      total := s.sched.total - (s.board b).inFlight }
    keys := Vector.ofFn fun k => if s.onLine b k then (s.key k).disabled else s.key k
    pedals := { sustain := if s.pedalOnBoard .sustain b then s.pedals.sustain.disabled else s.pedals.sustain
                soft := if s.pedalOnBoard .soft b then s.pedals.soft.disabled else s.pedals.soft }
    port := { s.port with boards := s.port.boards.set b { s.board b with
      service := .disabled reason, faultReason := fault, inFlight := 0 } }
    link := { s.link with sentDrive := s.link.sentDrive ++ boardOffs b s } }

/-- The board is out of service, and its driven targets are let go (R146 steps 1 and 2). -/
def boardCut (b : Board) (reason : DisableReason) (fault : Option FaultReason) (s : State) : State :=
  { s with
    port := { s.port with boards := s.port.boards.set b { s.board b with
      service := .disabled reason, faultReason := fault } }
    link := { s.link with sentDrive := s.link.sentDrive ++ boardOffs b s } }

theorem disableBoard_steps (b : Board) (reason : DisableReason) (fault : Option FaultReason) (s : State) :
    disableBoard b reason fault s =
      arbiterUnlessPaused (freeBoard b (disablePedals b (disableKeys b (boardCut b reason fault s)))) := by
  unfold boardCut
  rw [boardOffs_eq]
  rfl

/-- One pedal of a disabled board is UP, its sources kept (R90). -/
def disablePedal (p : Pedal) (b : Board) (s : State) : State :=
  if s.pedalOnBoard p b then updatePedal p PedalRec.disabled s else s

theorem disablePedal_sustain (b : Board) (s : State) : disablePedal .sustain b s = { s with pedals := { s.pedals with
    sustain := if s.pedalOnBoard .sustain b then s.pedals.sustain.disabled else s.pedals.sustain } } := by
  unfold disablePedal
  cases s.pedalOnBoard .sustain b <;> rfl

theorem disablePedal_soft (b : Board) (s : State) : disablePedal .soft b s = { s with pedals := { s.pedals with
    soft := if s.pedalOnBoard .soft b then s.pedals.soft.disabled else s.pedals.soft } } := by
  unfold disablePedal
  cases s.pedalOnBoard .soft b <;> rfl

theorem disablePedals_eq (b : Board) (s : State) : disablePedals b s = { s with
    pedals := { sustain := if s.pedalOnBoard .sustain b then s.pedals.sustain.disabled else s.pedals.sustain
                soft := if s.pedalOnBoard .soft b then s.pedals.soft.disabled else s.pedals.soft } } := by
  have hboth : disablePedals b s = disablePedal .soft b (disablePedal .sustain b s) := rfl
  rw [hboth, disablePedal_soft, disablePedal_sustain]
  rfl

theorem disableKeys_eq {b : Board} {s begun : State} (h : endRemovedProbes b s = begun) (hsched : begun.sched = s.sched)
    (hkeys : begun.keys = s.keys) : disableKeys b s = { countBy (s.removedStrikes b) .offlineDiscards begun with
      sched := { s.sched with deferral := s.sched.deferral.filter fun e => !s.onLine b e.key }
      keys := Vector.ofFn fun k => if s.onLine b k then (s.key k).disabled else s.key k } := by
  unfold disableKeys
  rw [h]
  simp only [mapKeys, State.key, countBy_sched, countBy_keys, hsched, hkeys]

theorem freeBoard_eq (b : Board) (s : State) : freeBoard b s = { s with
    sched := { s.sched with total := s.sched.total - (s.board b).inFlight }
    port := { s.port with boards := s.port.boards.set b { s.board b with inFlight := 0 } } } := rfl

/-- The probe's end reads neither the boards nor what is sent. -/
theorem endRemovedProbes_boardCut (b : Board) (reason : DisableReason) (fault : Option FaultReason) (s : State) :
    endRemovedProbes b (boardCut b reason fault s) = { endRemovedProbes b s with
      port := (boardCut b reason fault s).port, link := (boardCut b reason fault s).link } := by
  have hsame : (boardCut b reason fault s).probeGoes b ↔ s.probeGoes b := Iff.rfl
  by_cases h : s.probeGoes b
  · rw [endRemovedProbes_gone h, endRemovedProbes_gone (hsame.2 h)]
    rfl
  · rw [endRemovedProbes_kept h, endRemovedProbes_kept (mt hsame.1 h)]
    rfl

theorem endRemovedProbes_frame (b : Board) (s : State) : (endRemovedProbes b s).sched = s.sched ∧
    (endRemovedProbes b s).keys = s.keys ∧ (endRemovedProbes b s).pedals = s.pedals ∧
      (endRemovedProbes b s).perf = s.perf := by
  by_cases h : s.probeGoes b
  · rw [endRemovedProbes_gone h]
    exact ⟨rfl, rfl, rfl, rfl⟩
  · rw [endRemovedProbes_kept h]
    exact ⟨rfl, rfl, rfl, rfl⟩

/-- Freeing the slots of a board whose record was just replaced. -/
theorem freeBoard_set {b : Board} {r : BoardRec} {s t : State}
    (hport : t.port = { s.port with boards := s.port.boards.set b r }) : freeBoard b t = { t with
      sched := { t.sched with total := t.sched.total - r.inFlight }
      port := { s.port with boards := s.port.boards.set b { r with inFlight := 0 } } } := by
  have hboard : t.board b = r := by
    unfold State.board
    rw [hport]
    exact Vector.getElem_set_self _
  rw [freeBoard_eq, hboard, hport, Vector.set_set]

theorem pedalOnBoard_congr {s t : State} (h : t.port.profile = s.port.profile) (p : Pedal) (b : Board) :
    t.pedalOnBoard p b = s.pedalOnBoard p b := by
  unfold State.pedalOnBoard State.pedalWire
  rw [h]

theorem disablePedals_of {s t : State} (hprofile : t.port.profile = s.port.profile) (hpedals : t.pedals = s.pedals)
    (b : Board) : disablePedals b t = { t with
      pedals := { sustain := if s.pedalOnBoard .sustain b then s.pedals.sustain.disabled else s.pedals.sustain
                  soft := if s.pedalOnBoard .soft b then s.pedals.soft.disabled else s.pedals.soft } } := by
  rw [disablePedals_eq, pedalOnBoard_congr hprofile, pedalOnBoard_congr hprofile, hpedals]

theorem freeBoard_disablePedals {b : Board} {r : BoardRec} {s t : State}
    (hport : t.port = { s.port with boards := s.port.boards.set b r }) (hpedals : t.pedals = s.pedals) :
    freeBoard b (disablePedals b t) = { t with
      pedals := { sustain := if s.pedalOnBoard .sustain b then s.pedals.sustain.disabled else s.pedals.sustain
                  soft := if s.pedalOnBoard .soft b then s.pedals.soft.disabled else s.pedals.soft }
      sched := { t.sched with total := t.sched.total - r.inFlight }
      port := { s.port with boards := s.port.boards.set b { r with inFlight := 0 } } } := by
  have hprofile : t.port.profile = s.port.profile := by rw [hport]
  rw [disablePedals_of hprofile hpedals]
  exact freeBoard_set hport

/-- The disable of a board: what it leaves before the arbiter serves the slots that it freed. -/
theorem disableBoard_eq (b : Board) (reason : DisableReason) (fault : Option FaultReason) (s : State) :
    disableBoard b reason fault s =
      if s.perf.state = .paused then boardOut b reason fault s (endRemovedProbes b s)
      else runArbiter (boardOut b reason fault s (endRemovedProbes b s)) := by
  obtain ⟨hsched, hkeys, hpedals, hperf⟩ := endRemovedProbes_frame b s
  have hprobe := endRemovedProbes_boardCut b reason fault s
  rw [disableBoard_steps]
  generalize endRemovedProbes b s = begun at *
  have hdisabled : disableKeys b (boardCut b reason fault s) =
      { countBy (s.removedStrikes b) .offlineDiscards begun with
        sched := { s.sched with deferral := s.sched.deferral.filter fun e => !s.onLine b e.key }
        keys := Vector.ofFn fun k => if s.onLine b k then (s.key k).disabled else s.key k
        port := (boardCut b reason fault s).port
        link := (boardCut b reason fault s).link } := disableKeys_eq hprobe hsched hkeys
  have hout : freeBoard b (disablePedals b (disableKeys b (boardCut b reason fault s))) =
      boardOut b reason fault s begun := by
    rw [hdisabled]
    refine (freeBoard_disablePedals (s := s) (r := { s.board b with service := .disabled reason, faultReason := fault })
      ?_ ?_).trans ?_
    · rfl
    · exact hpedals
    · rfl
  have hplays : (boardOut b reason fault s begun).perf.state = s.perf.state := congrArg PerfControl.state hperf
  rw [hout]
  unfold arbiterUnlessPaused
  rw [hplays]

end Sys2Proof.Machine

namespace Sys2Proof.Machine

/-! ### The frames of the boards (R143 to R145) -/

theorem presentBoard_some_iff (s : State) (n : BitVec 4) (b : Board) : s.presentBoard n = some b ↔
    b.val = n.toNat ∧ s.port.profile ≠ none ∧ (s.board b).present = true := by
  unfold State.presentBoard
  rw [Option.filter_eq_some_iff, boardOf?_iff, Bool.and_eq_true, Option.isSome_iff_ne_none]

/-- A report of a board's channel is routed to a key (R143, R144). -/
def State.routes (s : State) (board : BitVec 4) (channel : Byte) (b : Board) (k : Key) : Prop :=
  b.val = board.toNat ∧ (s.board b).present = true ∧ (s.board b).service = .enabled ∧ channel.toNat ≤ 23 ∧
    s.keyWire k = some (b, channel.toNat)

theorem reportKey_routes {s : State} {board : BitVec 4} {channel : Byte} {k : Key}
    (h : s.reportKey board channel = some k) : ∃ b, s.routes board channel b k := by
  obtain ⟨b, hpresent, hkey⟩ := Option.bind_eq_some_iff.1 h
  obtain ⟨hboard, -, hhere⟩ := (presentBoard_some_iff s board b).1 hpresent
  obtain ⟨⟨henabled, hchannel⟩, hat⟩ := Option.ite_none_right_eq_some.1 hkey
  have hwire := List.find?_some hat
  exact ⟨b, hboard, hhere, of_decide_eq_true henabled, Nat.le_of_lt_succ hchannel, eq_of_beq hwire⟩

/-- A key on a channel stands for a profile that is written. -/
theorem profile_of_keyWire {s : State} {k : Key} {w : Board × Nat} (h : s.keyWire k = some w) : s.port.profile ≠ none := by
  intro hnone
  unfold State.keyWire at h
  rw [hnone] at h
  cases h

theorem not_routes_of_reportKey {s : State} {board : BitVec 4} {channel : Byte} (h : s.reportKey board channel = none)
    (b : Board) (k : Key) : ¬s.routes board channel b k := by
  rintro ⟨hboard, hhere, henabled, hchannel, hwire⟩
  have hpresent := (presentBoard_some_iff s board b).2 ⟨hboard, profile_of_keyWire hwire, hhere⟩
  have hat : s.keyAt b channel.toNat = none := by
    unfold State.reportKey at h
    rw [hpresent, Option.bind_some, if_pos ⟨decide_eq_true henabled, Nat.lt_succ_of_le hchannel⟩] at h
    exact h
  exact List.find?_eq_none.1 hat k (mem_allKeys k) (beq_iff_eq.2 hwire)

/-- A discarded frame is counted and does nothing else. -/
theorem finishEvent_stray {s : State} (h : s.settled) : finishEvent s (count .strayReports s) = count .strayReports s := by
  rw [finishEvent_settled (settled_same (t := count .strayReports s) h rfl rfl rfl rfl)]
  exact ended_same rfl

theorem exec_strikeReport_stray {board : BitVec 4} {channel : Byte} {s : State} (measured : BitVec 16)
    (h : s.reportKey board channel = none) (hsettled : s.settled) :
    exec (.strikeReport board channel measured) s = .next (count .strayReports s) := by
  have harm : exec (.strikeReport board channel measured) s = execStrikeReport board channel measured s := rfl
  rw [harm, execStrikeReport, h, finishEvent_stray hsettled]

theorem exec_restReport_stray {board : BitVec 4} {channel : Byte} {s : State} (h : s.reportKey board channel = none)
    (hsettled : s.settled) : exec (.restReport board channel) s = .next (count .strayReports s) := by
  have harm : exec (.restReport board channel) s = execRestReport board channel s := rfl
  rw [harm, execRestReport, h, finishEvent_stray hsettled]

theorem exec_strayReport {s : State} (hsettled : s.settled) : exec .strayReport s = .next (count .strayReports s) := by
  have harm : exec .strayReport s = execStrayReport s := rfl
  rw [harm, execStrayReport, finishEvent_stray hsettled]

theorem exec_faultReport_stray {board : BitVec 4} {s : State} (reason : FaultReason)
    (h : s.presentBoard board = none) (hsettled : s.settled) :
    exec (.faultReport board reason) s = .next (count .strayReports s) := by
  have harm : exec (.faultReport board reason) s = execFaultReport board reason s := rfl
  rw [harm, execFaultReport, h, finishEvent_stray hsettled]

theorem exec_faultReport {board : BitVec 4} {b : Board} {s : State} (reason : FaultReason)
    (h : s.presentBoard board = some b) :
    exec (.faultReport board reason) s = .next ((settle (takeFault b reason s)).ended s.mgmt.flags) := by
  have harm : exec (.faultReport board reason) s = execFaultReport board reason s := rfl
  rw [harm, execFaultReport, h, finishEvent, dueNotice_eq]

theorem boardEnabled_iff (s : State) (b : Board) : s.boardEnabled b = true ↔ (s.board b).service = .enabled :=
  decide_eq_true_iff

theorem takeFault_enabled {b : Board} {s : State} (reason : FaultReason) (h : (s.board b).service = .enabled) :
    takeFault b reason s = raise .boardFault
      (if s.perf.state = .paused then boardOut b .fault (some reason) s (endRemovedProbes b s)
      else runArbiter (boardOut b .fault (some reason) s (endRemovedProbes b s))) := by
  unfold takeFault
  rw [if_pos ((boardEnabled_iff s b).2 h), disableBoard_eq]

theorem takeFault_disabled {b : Board} {s : State} (reason : FaultReason) (h : (s.board b).service ≠ .enabled) :
    takeFault b reason s = raise .boardFault { s with port := { s.port with
      boards := s.port.boards.set b { s.board b with service := .disabled .fault, faultReason := some reason } } } := by
  unfold takeFault
  rw [if_neg (mt (boardEnabled_iff s b).1 h)]
  rfl

/-- Neither R17 nor R163 looks at the boards. -/
theorem withPort_settled {s : State} (h : s.settled) (port : ActionPort) : State.settled { s with port := port } :=
  settled_same h rfl rfl rfl rfl

/-- Settles O51: a report by its route, a FAULT report by whether its board is in service. -/
theorem boardFramesAreRoutedOrStray : Obligations.BoardFramesAreRoutedOrStray := by
  unfold Obligations.BoardFramesAreRoutedOrStray
  intro board channel measured reason s routed stray
  refine ⟨fun k => reportKey_routes, not_routes_of_reportKey,
    fun hsettled hnone => ⟨exec_strikeReport_stray measured hnone hsettled, exec_restReport_stray hnone hsettled⟩,
    exec_strayReport, fun hsettled habsent => exec_faultReport_stray reason ?_ hsettled,
    fun b hprofile hboard hhere => ⟨fun henabled => ?_, fun hdisabled hsettled => ?_⟩⟩
  · refine Option.eq_none_iff_forall_ne_some.2 fun b hb => ?_
    obtain ⟨hboard, hprofile, hhere⟩ := (presentBoard_some_iff s board b).1 hb
    rcases habsent with hnone | hno
    · exact hprofile hnone
    · rw [hno b hboard] at hhere
      cases hhere
  · intro off leaves removes probeGoes discards lifted offs out takes
    have hpresent := (presentBoard_some_iff s board b).2 ⟨hboard, hprofile, hhere⟩
    have hexec := exec_faultReport reason hpresent
    rw [takeFault_enabled reason henabled] at hexec
    have hout : ∀ begun, boardOut b .fault (some reason) s begun = out begun := by
      have hdiscards : s.removedStrikes b = discards := by
        unfold State.removedStrikes allKeys
        rfl
      intro begun
      unfold boardOut
      rw [hdiscards]
      rfl
    refine ⟨fun hgoes => ?_, fun hstays => ?_⟩
    · rw [endRemovedProbes_gone hgoes, hout] at hexec
      exact hexec
    · rw [endRemovedProbes_kept hstays, hout] at hexec
      exact hexec
  · have hpresent := (presentBoard_some_iff s board b).2 ⟨hboard, hprofile, hhere⟩
    rw [exec_faultReport reason hpresent, takeFault_disabled reason hdisabled,
      settle_of_settled (raise_settled (withPort_settled hsettled _) _)]

end Sys2Proof.Machine

namespace Sys2Proof.Machine

/-! ### BOARD requests (R147, R148) -/

theorem exec_boardEnable_good (id n : Byte) (s : State) : exec (.boardEnable id (.good n)) s =
    request (.boardEnable id (.good n)) id (onBoard takeEnable n) s := rfl

theorem exec_boardDisable_good (id n : Byte) (s : State) : exec (.boardDisable id (.good n)) s =
    request (.boardDisable id (.good n)) id (onBoard takeDisable n) s := rfl

section
variable {take : Board → State → State × Result} {n : Byte} {s : State}

theorem onBoard_invalid (h : 4 ≤ n.toNat) : onBoard take n s = (s, .invalid) := by
  have hnone : boardOf? n.toNat = none := dif_neg (Nat.not_lt.2 h)
  unfold onBoard
  rw [hnone]

theorem onBoard_notReady (h : n.toNat < 4) (hprofile : s.port.profile = none) : onBoard take n s = (s, .notReady) := by
  have hboard : boardOf? n.toNat = some ⟨n.toNat, h⟩ := dif_pos h
  unfold onBoard
  rw [hboard, hprofile]
  rfl

theorem onBoard_takes {b : Board} (hboard : b.val = n.toNat) (hprofile : s.port.profile ≠ none) :
    onBoard take n s = take b s := by
  have hprofile : s.port.profile.isNone = false := by
    rw [Bool.eq_false_iff]
    exact mt Option.isNone_iff_eq_none.1 hprofile
  unfold onBoard
  rw [(boardOf?_iff _ b).2 hboard]
  dsimp only
  rw [hprofile]
  rfl
end

/-! #### The enable -/

/-- The board back in service, its OFFLINE keys at rest (R135, R148). -/
def boardOn (b : Board) (s : State) : State :=
  { s with
    port := { s.port with boards := s.port.boards.set b { s.board b with service := .enabled, faultReason := none } }
    keys := Vector.ofFn fun k =>
      if s.keyOnBoard k b = true ∧ (s.key k).phase = .offline then { s.key k with phase := .resting } else s.key k }

/-- What a pedal becomes as a board comes back into service, and what is sent to it. -/
def pedalBack (b : Board) (s : State) (p : Pedal) : PedalRec × Option DriveAction :=
  if s.pedalOnBoard p b then (boardOn b s).pedalTakes p (s.pedal p) else (s.pedal p, none)

theorem boardOn_frame (b : Board) (s : State) : (boardOn b s).port.profile = s.port.profile ∧
    (boardOn b s).pedals = s.pedals ∧ (boardOn b s).link = s.link := by
  simp only [boardOn, and_self]

theorem boardOn_eq (b : Board) (s : State) :
    enableKeys b (updateBoard b (fun r => { r with service := .enabled, faultReason := none }) s) = boardOn b s := by
  unfold enableKeys boardOn
  simp only [mapKeys, Bool.and_eq_true, beq_iff_eq]
  rfl

/-- What each pedal of a board takes as it is driven. -/
def boardPedalTakes (b : Board) (s : State) (p : Pedal) : PedalRec × Option DriveAction :=
  if s.pedalOnBoard p b then s.pedalTakes p (s.pedal p) else (s.pedal p, none)

/-- Driving a pedal if it stands on a board. -/
def driveBoardPedal (b : Board) (p : Pedal) (s : State) : State := if s.pedalOnBoard p b then drivePedal p s else s

theorem driveBoardPedal_eq (b : Board) (p : Pedal) (s : State) :
    driveBoardPedal b p s = setAndSend p (boardPedalTakes b s p) s := by
  unfold driveBoardPedal boardPedalTakes
  by_cases h : s.pedalOnBoard p b = true
  · rw [if_pos h, if_pos h, drivePedal_eq]
  · rw [if_neg h, if_neg h]
    have hsends : s.link.sentDrive ++ [] = s.link.sentDrive := List.append_nil _
    cases p
    all_goals
      show s = { s with pedals := s.pedals, link := { s.link with sentDrive := s.link.sentDrive ++ [] } }
      rw [hsends]

theorem driveBoardPedals_eq (b : Board) (s : State) : driveBoardPedals b s = { s with
    pedals := { sustain := (boardPedalTakes b s .sustain).1, soft := (boardPedalTakes b s .soft).1 }
    link := { s.link with sentDrive := s.link.sentDrive ++ (allPedals.filterMap fun p =>
      (boardPedalTakes b s p).2.bind fun a => driveCmd (s.pedalWire p) a) } } := by
  have hboth : driveBoardPedals b s = driveBoardPedal b .soft (driveBoardPedal b .sustain s) := rfl
  have hsoft : ∀ x, boardPedalTakes b (setAndSend .sustain x s) .soft = boardPedalTakes b s .soft := fun x => rfl
  have hsends : (allPedals.filterMap fun p => (boardPedalTakes b s p).2.bind fun a => driveCmd (s.pedalWire p) a) =
      ((boardPedalTakes b s .sustain).2.bind fun a => driveCmd (s.pedalWire .sustain) a).toList ++
        ((boardPedalTakes b s .soft).2.bind fun a => driveCmd (s.pedalWire .soft) a).toList := by
    simp only [allPedals, List.filterMap_cons, List.filterMap_nil]
    generalize ((boardPedalTakes b s .sustain).2.bind fun a => driveCmd (s.pedalWire .sustain) a) = x
    generalize ((boardPedalTakes b s .soft).2.bind fun a => driveCmd (s.pedalWire .soft) a) = y
    cases x <;> cases y <;> rfl
  rw [hboth, driveBoardPedal_eq, driveBoardPedal_eq, hsoft, hsends, ← List.append_assoc]
  rfl

/-- The enable of a board: its keys rest, and its pedals follow their sources. -/
theorem enableBoard_eq (b : Board) (s : State) : enableBoard b s = { boardOn b s with
    pedals := { sustain := (pedalBack b s .sustain).1, soft := (pedalBack b s .soft).1 }
    link := { s.link with sentDrive := s.link.sentDrive ++ (allPedals.filterMap fun p =>
      (pedalBack b s p).2.bind fun a => driveCmd (s.pedalWire p) a) } } := by
  obtain ⟨hprofile, hpedals, hlink⟩ := boardOn_frame b s
  have htakes : boardPedalTakes b (boardOn b s) = pedalBack b s := by
    funext p
    have hpedal : (boardOn b s).pedal p = s.pedal p := by
      cases p
      · exact congrArg PedalUnit.sustain hpedals
      · exact congrArg PedalUnit.soft hpedals
    unfold boardPedalTakes pedalBack
    rw [hpedal, pedalOnBoard_congr hprofile]
  have hwire : (boardOn b s).pedalWire = s.pedalWire := by
    funext p
    unfold State.pedalWire
    rw [hprofile]
  unfold enableBoard
  rw [boardOn_eq, driveBoardPedals_eq, htakes, hwire, hlink]

/-! The branches of the BOARD requests. -/

theorem takeEnable_eq (b : Board) (s : State) : takeEnable b s =
    if (s.board b).service = .disabled .absent then (s, .invalid)
    else if s.perf.state = .playing then (s, .busy)
    else if (s.board b).service = .enabled then (s, .ok)
    else (enableBoard b s, .ok) := by
  unfold takeEnable
  cases hservice : (s.board b).service with
  | enabled => simp
  | disabled reason => cases reason <;> simp

theorem takeDisable_enabled {b : Board} {s : State} (h : (s.board b).service = .enabled) : takeDisable b s =
    (if s.perf.state = .paused then boardOut b .request none s (endRemovedProbes b s)
      else runArbiter (boardOut b .request none s (endRemovedProbes b s)), .ok) := by
  unfold takeDisable
  rw [if_pos ((boardEnabled_iff s b).2 h), disableBoard_eq]

theorem takeDisable_disabled {b : Board} {s : State} (h : (s.board b).service ≠ .enabled) : takeDisable b s = (s, .ok) :=
  if_neg (mt (boardEnabled_iff s b).1 h)

/-- A BOARD request that changes nothing. -/
theorem request_board_refused {take : Board → State → State × Result} {n : Byte} {s : State} {r : Result}
    (hready : s.ready) (hsettled : s.settled) (c : Instr) (id : Byte) (h : onBoard take n s = (s, r)) :
    request c id (onBoard take n) s = .next (s.nowDue [.response id r []]) :=
  request_responds hready c id h hsettled rfl

/-- Settles O52: the answers of R147, and what an enable and a disable leave by `enableBoard_eq` and `disableBoard_eq`. -/
theorem boardRequestsDisableAndEnable : Obligations.BoardRequestsDisableAndEnable := by
  unfold Obligations.BoardRequestsDisableAndEnable
  intro id n s hready hsettled refused
  refine ⟨fun h => ⟨?_, ?_⟩, fun hlt hnone => ⟨?_, ?_⟩, fun b hboard hprofile => ?_⟩
  · exact request_board_refused hready hsettled _ id (onBoard_invalid h)
  · exact request_board_refused hready hsettled _ id (onBoard_invalid h)
  · exact request_board_refused hready hsettled _ id (onBoard_notReady hlt hnone)
  · exact request_board_refused hready hsettled _ id (onBoard_notReady hlt hnone)
  intro service on follows sends enabled off leaves removes probeGoes discards lifted offs out
  have htaken : ∀ take : Board → State → State × Result, onBoard take n s = take b s := fun take =>
    onBoard_takes hboard hprofile
  refine ⟨?enable, ?disable⟩
  case enable =>
    have henable := htaken takeEnable
    have henabled : enableBoard b s = enabled := enableBoard_eq b s
    rw [takeEnable_eq, henabled] at henable
    rw [exec_boardEnable_good]
    split_ifs at henable ⊢
    case neg => rw [request_ready hready, henable]
    all_goals exact request_board_refused hready hsettled _ id henable
  case disable =>
    intro disables
    have hout : ∀ begun, boardOut b .request none s begun = out begun := by
      have hdiscards : s.removedStrikes b = discards := by
        unfold State.removedStrikes allKeys
        rfl
      intro begun
      unfold boardOut
      rw [hdiscards]
      rfl
    have hdisables : service = .enabled → disables (endRemovedProbes b s) := fun henabled => by
      have hexec := exec_boardDisable_good id n s
      rw [request_ready hready, htaken takeDisable, takeDisable_enabled henabled, hout] at hexec
      exact hexec
    refine ⟨fun henabled hgoes => ?_, fun henabled hstays => ?_, fun hdisabled => ?_⟩
    · have h := hdisables henabled
      rw [endRemovedProbes_gone hgoes] at h
      exact h
    · have h := hdisables henabled
      rw [endRemovedProbes_kept hstays] at h
      exact h
    · exact request_board_refused hready hsettled _ id ((htaken takeDisable).trans (takeDisable_disabled hdisabled))

end Sys2Proof.Machine

namespace Sys2Proof.Machine

/-! ### ADAPT (R157) -/

/-- What R17 and R163 look at of a key: its phase, its pending strike, and the observed state against the snapshot. -/
structure SameRest (q r : KeyRec) : Prop where
  phase : r.phase = q.phase
  pending : r.pending = q.pending
  observed : r.observed = q.observed
  snapshot : r.snapshot = q.snapshot

theorem SameRest.refl (r : KeyRec) : SameRest r r := ⟨rfl, rfl, rfl, rfl⟩

theorem SameRest.thawed (r : KeyRec) : SameRest r r.thawed := ⟨rfl, rfl, rfl, rfl⟩

theorem SameRest.adaptReset (r : KeyRec) : SameRest r r.adaptReset := ⟨rfl, rfl, rfl, rfl⟩

theorem settled_of_sameRest {s t : State} (h : s.settled) (hstate : t.perf.state = s.perf.state)
    (hsched : t.sched = s.sched) (hflags : t.mgmt.flags = s.mgmt.flags) (hkeys : ∀ k, SameRest (s.key k) (t.key k)) :
    t.settled := by
  have hdrained : t.drained = s.drained := by
    rw [Bool.eq_iff_iff, drained_iff, drained_iff, hsched]
    simp only [(hkeys _).phase, (hkeys _).pending]
  have hmismatch : t.anyMismatch = s.anyMismatch := by
    rw [Bool.eq_iff_iff, anyMismatch_iff, anyMismatch_iff]
    simp only [(hkeys _).phase, (hkeys _).observed, (hkeys _).snapshot]
  refine ⟨fun hdraining => ?_, fun hany => ?_⟩
  · rw [hdrained]
    exact h.1 (hstate ▸ hdraining)
  · rw [flag_congr hflags]
    exact h.2 (hmismatch ▸ hany)

theorem updateKey_settled {s : State} (h : s.settled) (k : Key) {f : KeyRec → KeyRec} (hf : ∀ r, SameRest r (f r)) :
    (updateKey k f s).settled := by
  refine settled_of_sameRest h rfl rfl rfl fun j => ?_
  unfold updateKey
  rw [key_setKey]
  split_ifs with hj
  · rw [hj]
    exact hf _
  · exact .refl _

theorem mapKeys_settled {s : State} (h : s.settled) {f : Key → KeyRec → KeyRec} (hf : ∀ k r, SameRest r (f k r)) :
    (mapKeys f s).settled := by
  refine settled_of_sameRest h (by rw [mapKeys_perf]) (mapKeys_sched f s) (by rw [mapKeys_mgmt]) fun j => ?_
  rw [key_mapKeys]
  exact hf j _

theorem exec_adaptReset_good (id n : Byte) (s : State) : exec (.adaptReset id (.good n)) s =
    request (.adaptReset id (.good n)) id (takeAdaptKey KeyRec.adaptReset n) s := rfl

theorem exec_adaptThaw_good (id n : Byte) (s : State) : exec (.adaptThaw id (.good n)) s =
    request (.adaptThaw id (.good n)) id (takeAdaptKey KeyRec.thawed n) s := rfl

theorem keyOf?_none {n : Nat} (h : n = 0 ∨ 88 < n) : keyOf? n = none := dif_neg (by omega)

theorem takeAdaptKey_key {n : Byte} {k : Key} (h : n.toNat = k.val + 1) (f : KeyRec → KeyRec) (s : State) :
    takeAdaptKey f n s = (updateKey k f s, .ok) := by
  unfold takeAdaptKey
  rw [(keyOf?_iff _ k).2 h]

theorem takeAdaptKey_invalid {n : Byte} (h : n.toNat = 0 ∨ 88 < n.toNat) (f : KeyRec → KeyRec) (s : State) :
    takeAdaptKey f n s = (s, .invalid) := by
  unfold takeAdaptKey
  rw [keyOf?_none h]

/-- Settles O53. -/
theorem adaptRequestsResetAndThaw : Obligations.AdaptRequestsResetAndThaw := by
  unfold Obligations.AdaptRequestsResetAndThaw
  intro id n s hready hsettled ok thawed withKeys
  refine ⟨?_, ?_, ?_, fun k hk => ⟨?_, ?_⟩, fun hn => ⟨?_, ?_⟩⟩
  · exact request_responds (t := setAdapt true s) hready _ id rfl (withCalib_settled hsettled _) rfl
  · exact request_responds (t := setAdapt false s) hready _ id rfl (withCalib_settled hsettled _) rfl
  · exact request_responds (t := mapKeys (fun _ r => r.adaptReset) s) hready _ id rfl
      (mapKeys_settled hsettled fun _ => .adaptReset) (by rw [mapKeys_mgmt])
  · rw [exec_adaptReset_good]
    exact request_responds hready _ id (takeAdaptKey_key hk _ s) (updateKey_settled hsettled k .adaptReset) rfl
  · rw [exec_adaptThaw_good]
    exact request_responds hready _ id (takeAdaptKey_key hk _ s) (updateKey_settled hsettled k .thawed) rfl
  · exact request_responds hready _ id (takeAdaptKey_invalid hn _ s) hsettled rfl
  · exact request_responds hready _ id (takeAdaptKey_invalid hn _ s) hsettled rfl

end Sys2Proof.Machine

namespace Sys2Proof.Machine

/-! ### PROBE (R159, R103) -/

theorem exec_probe_good (id : Byte) (r : RawProbe) (s : State) :
    exec (.probe id (.good r)) s = request (.probe id (.good r)) id (takeProbe r) s := rfl

theorem takeProbe_invalid {r : RawProbe} (h : r.key.toNat = 0 ∨ 88 < r.key.toNat) (s : State) :
    takeProbe r s = (s, .invalid) := by
  unfold takeProbe
  rw [keyOf?_none h]

/-- The answers to a PROBE of a key, in their order. -/
theorem takeProbe_eq {r : RawProbe} {k : Key} (h : r.key.toNat = k.val + 1) (s : State) : takeProbe r s =
    if s.port.profile = none then (s, .notReady)
    else if s.perf.state ≠ .stopped then (s, .busy)
    else if s.probeBusy = true then (s, .busy)
    else if 256 ≤ s.sched.queue.length + s.sched.owed then (s, .full)
    else (beginProbe k (max 1 (min 1000 r.intensity.toNat)) (min 2000 r.hold.toNat) s,
      if max 1 (min 1000 r.intensity.toNat) = r.intensity.toNat ∧ min 2000 r.hold.toNat = r.hold.toNat then .ok
      else .clamped) := by
  have hanswer : ∀ i h : Nat, loadResult (i != r.intensity.toNat || h != r.hold.toNat) =
      if i = r.intensity.toNat ∧ h = r.hold.toNat then .ok else .clamped := fun i h => by
    by_cases hi : i = r.intensity.toNat <;> by_cases hh : h = r.hold.toNat <;> simp [loadResult, hi, hh]
  unfold takeProbe
  rw [(keyOf?_iff _ k).2 h]
  simp only [hanswer, Option.isNone_iff_eq_none, queueCapacity, State.queueLoad, clampNat]

/-- Settles O54. -/
theorem probeBeginsItsStrike : Obligations.ProbeBeginsItsStrike := by
  unfold Obligations.ProbeBeginsItsStrike
  intro id r s hready hsettled refused
  refine ⟨fun h => request_responds hready _ id (takeProbe_invalid h s) hsettled rfl, fun k hk => ?_⟩
  intro i h serial v tag release noted
  have hprobe := takeProbe_eq hk s
  rw [exec_probe_good]
  split_ifs at hprobe ⊢
  · exact request_responds hready _ id hprobe hsettled rfl
  · exact request_responds hready _ id hprobe hsettled rfl
  · exact request_responds hready _ id hprobe hsettled rfl
  · exact request_responds hready _ id hprobe hsettled rfl
  all_goals
    rw [request_ready hready, hprobe]
    rfl

end Sys2Proof.Machine

namespace Sys2Proof.Machine

/-! ### The READ requests (R170, R171) -/

/-- A READ that leaves a settled state with the flags as they were is answered with its data, and no notice is due. -/
theorem readRequest_answers {s t : State} {effect : State → State} {data : State → Option (List Byte)}
    {bytes : List Byte} (hready : s.ready) (c : Instr) (id : Byte) (heffect : effect s = t) (hsettled : t.settled)
    (hflags : t.mgmt.flags = s.mgmt.flags) (hdata : data t = some bytes) :
    readRequest c id effect data s = .next (t.nowDue [.response id .ok bytes]) := by
  have hsettle : settle (effect s) = t := by rw [heffect, settle_of_settled hsettled]
  rw [readRequest_some hready c id effect data (by rw [hsettle, hdata]), hsettle, replied_same hflags]

/-- A READ that finds no data is INVALID and changes nothing. -/
theorem readRequest_refuses {s : State} {data : State → Option (List Byte)} (hready : s.ready) (hsettled : s.settled)
    (c : Instr) (id : Byte) (hdata : data s = none) :
    readRequest c id (fun s => s) data s = .next (s.nowDue [.response id .invalid []]) := by
  rw [readRequest_none hready c id _ data (by rw [settle_of_settled hsettled, hdata]), settle_of_settled hsettled,
    replied_same rfl]

theorem exec_readKey_good (id n : Byte) (s : State) : exec (.readKey id (.good n)) s =
    readRequest (.readKey id (.good n)) id (fun s => s) (fun t => (keyOf? n.toNat).map (keyData t)) s := rfl

theorem exec_readTable_good (id : Byte) (q : TableAt) (s : State) : exec (.readTable id (.good q)) s =
    readRequest (.readTable id (.good q)) id (fun s => s) (fun t => tableData t q) s := rfl

theorem exec_readKeys_good (id : Byte) (s : State) : exec (.readKeys id (.good ())) s =
    readRequest (.readKeys id (.good ())) id copySnapshots (fun t => some (keysData t)) s := rfl

theorem exec_readCounters_good (id : Byte) (clear : Bool) (s : State) : exec (.readCounters id (.good clear)) s =
    readRequest (.readCounters id (.good clear)) id
      (fun s => if (Form.good clear) = .good true then clearCounters s else s) (fun _ => some (countersData s)) s := rfl

/-! #### READ KEYS (R163) -/

/-- With each snapshot the observed state, no key is in mismatch; and nothing else that R17 looks at changes. -/
theorem copySnapshots_settled {s : State} (h : s.settled) : (copySnapshots s).settled := by
  have hkey : ∀ k, (copySnapshots s).key k = { s.key k with snapshot := (s.key k).observed } := fun k => key_mapKeys k _ s
  have hsched : (copySnapshots s).sched = s.sched := mapKeys_sched _ s
  have hperf : (copySnapshots s).perf = s.perf := mapKeys_perf _ s
  have hdrained : (copySnapshots s).drained = s.drained := by
    rw [Bool.eq_iff_iff, drained_iff, drained_iff, hsched]
    simp only [hkey]
  refine ⟨fun hdraining => ?_, fun hmismatch => ?_⟩
  · rw [hdrained]
    rw [hperf] at hdraining
    exact h.1 hdraining
  · obtain ⟨k, -, hdiffers⟩ := (anyMismatch_iff _).1 hmismatch
    rw [hkey] at hdiffers
    exact absurd rfl hdiffers

theorem keysData_copySnapshots (s : State) : keysData (copySnapshots s) =
    List.ofFn fun k : Key => if (s.key k).observed = .up then 0#8 else 1#8 := by
  have hcode : ∀ p : Position, f1 p.code = [if p = .up then 0#8 else 1#8] := fun p => by
    cases p <;> rfl
  have hdata : ∀ k, f1 ((copySnapshots s).key k).observed.code = [if (s.key k).observed = .up then 0#8 else 1#8] :=
    fun k => by rw [copySnapshots, key_mapKeys, hcode]
  unfold keysData
  simp only [hdata]
  rw [← List.map_eq_flatMap, allKeys, List.map_ofFn]
  rfl

/-! #### READ COUNTERS (R171, R175) -/

theorem countersData_eq (s : State) : countersData s =
    ([.crcErrors, .lengthKindErrors, .staleLines, .gapEvents, .idleLines, .pausedLines, .afterEndLines, .queueRefusals,
      .lateDrops, .supersededStrikes, .offlineDiscards, .outliers, .missedStrikes, .strayReports] :
      List Counter).flatMap fun c => f2 (s.counter c) := by
  have hlist : s.mgmt.counters.toList = [s.counter .crcErrors, s.counter .lengthKindErrors, s.counter .staleLines,
      s.counter .gapEvents, s.counter .idleLines, s.counter .pausedLines, s.counter .afterEndLines,
      s.counter .queueRefusals, s.counter .lateDrops, s.counter .supersededStrikes, s.counter .offlineDiscards,
      s.counter .outliers, s.counter .missedStrikes, s.counter .strayReports] := by
    have hplaces : s.mgmt.counters.toList = List.ofFn fun i : Fin 14 => s.mgmt.counters[i] :=
      List.ext_getElem (by simp) fun i _ _ => by
        rw [List.getElem_ofFn, Vector.getElem_toList]
        rfl
    rw [hplaces]
    rfl
  unfold countersData
  rw [hlist]
  rfl

/-! #### READ TABLE (R171) -/

theorem tableData_entries {s : State} {t : TableAt} {size : Nat} {entries : List (List Byte)}
    (h : tableEntries s t.table.toNat = some (size, entries)) (hfirst : t.first.toNat < entries.length)
    (hcount : t.count ≠ 0) :
    let out := (entries.drop t.first.toNat).take (min t.count.toNat (1018 / size))
    tableData s t = some (f1 t.table.toNat ++ f2 t.first.toNat ++ f1 out.length ++ out.flatten) := by
  unfold tableData
  rw [h]
  exact if_pos (by rw [Bool.and_eq_true, decide_eq_true_iff, bne_iff_ne]; exact ⟨hfirst, hcount⟩)

theorem tableData_beyond {s : State} {t : TableAt} {size : Nat} {entries : List (List Byte)}
    (h : tableEntries s t.table.toNat = some (size, entries)) (hfirst : entries.length ≤ t.first.toNat) :
    tableData s t = none := by
  unfold tableData
  rw [h]
  exact if_neg fun hwithin => absurd (of_decide_eq_true (Bool.and_eq_true_iff.1 hwithin).1) (Nat.not_lt.2 hfirst)

theorem tableData_unknown {s : State} {t : TableAt} (h : t.table.toNat = 0 ∨ 8 < t.table.toNat) :
    tableData s t = none := by
  have hnone : tableEntries s t.table.toNat = none := by
    unfold tableEntries
    split
    case h_9 => rfl
    all_goals omega
  unfold tableData
  rw [hnone]

end Sys2Proof.Machine

namespace Sys2Proof.Machine

theorem allBoards_eq : allBoards = [0, 1, 2, 3] := rfl

/-- Settles O55. -/
theorem readsAnswerTheirData : Obligations.ReadsAnswerTheirData := by
  unfold Obligations.ReadsAnswerTheirData
  refine ⟨fun id n clear q t s hready hsettled => ?_, fun s => ?_⟩
  · intro b1 b2 answers refuses
    have hb1 : f1 = b1 := funext f1_eq
    have hb2 : f2 = b2 := funext fun n => by rw [f2_eq, hb1]
    have hanswers : ∀ {c : Instr} {data : State → List Byte},
        exec c s = readRequest c id (fun s => s) (fun t => some (data t)) s → answers c (data s) := fun hexec =>
      hexec.trans (readRequest_answers hready _ id rfl hsettled rfl rfl)
    refine ⟨hanswers rfl, fun k hk => ?key, fun hn => ?noKey, ?keys, hanswers rfl, hanswers rfl, hanswers rfl, hanswers rfl,
      hanswers (data := fun t => queueData t q) rfl, hanswers rfl, ?counters, fun c by' => ⟨fun d => ?counter, rfl, rfl⟩,
      fun size entries hentries hfirst hcount => ?entries, fun hcode => ?noTable, fun size entries hentries hbeyond => ?beyond⟩
    case key =>
      have hkey : (keyOf? n.toNat).map (keyData s) = some (keyData s k) := by rw [(keyOf?_iff _ k).2 hk]; rfl
      exact (exec_readKey_good id n s).trans (readRequest_answers hready _ id rfl hsettled rfl hkey)
    case noKey =>
      have hkey : (keyOf? n.toNat).map (keyData s) = none := by rw [keyOf?_none hn]; rfl
      exact (exec_readKey_good id n s).trans (readRequest_refuses hready hsettled _ id hkey)
    case keys =>
      have hflags : (copySnapshots s).mgmt.flags = s.mgmt.flags := congrArg Management.flags (mapKeys_mgmt _ s)
      rw [exec_readKeys_good, readRequest_answers hready _ id rfl (copySnapshots_settled hsettled) hflags
        (congrArg some (keysData_copySnapshots s))]
      rfl
    case counters =>
      rw [exec_readCounters_good, ← hb2, ← countersData_eq]
      cases clear with
      | false => exact readRequest_answers hready _ id rfl hsettled rfl rfl
      | true =>
        have hcleared : (clearCounters s).settled := settled_same hsettled rfl rfl rfl rfl
        exact readRequest_answers hready _ id rfl hcleared rfl rfl
    case counter =>
      rw [counter_countBy]
      split_ifs with hd
      · rw [hd]
      · rfl
    case entries =>
      have hdata := tableData_entries hentries hfirst hcount
      rw [hb1, hb2] at hdata
      exact (exec_readTable_good id t s).trans (readRequest_answers hready _ id rfl hsettled rfl hdata)
    case noTable =>
      exact (exec_readTable_good id t s).trans (readRequest_refuses hready hsettled _ id (tableData_unknown hcode))
    case beyond =>
      exact (exec_readTable_good id t s).trans (readRequest_refuses hready hsettled _ id (tableData_beyond hentries hbeyond))
  · intro b1 b2 b3 b4 b6 signed bit opt tag vals base service position rate half entry fire route point record l
    have hb1 : f1 = b1 := funext f1_eq
    have hb2 : f2 = b2 := funext fun n => by rw [f2_eq, hb1]
    have hb3 : f3 = b3 := funext fun n => by rw [f3_eq, hb1, hb2]
    have hb4 : f4 = b4 := funext fun n => by rw [f4_eq, hb1, hb3]
    have hb6 : f6 = b6 := funext fun n => by rw [f6_eq, hb1, hb4]
    have hsigned : i2 = signed := funext fun i => by rw [i2_eq, hb2]
    have hbit : fBool = bit := funext fun b => congrFun hb1 _
    have hopt : ∀ {α : Type} (size : Nat) (field : α → List Byte) (x : Option α), fOpt size field x = opt size (x.map field) :=
      fun size field x => by cases x <;> rfl
    have htag : fTag = tag := funext fun t => by
      obtain ⟨origin, number⟩ := t
      unfold fTag
      rw [hb1, hb3]
      cases origin <;> rfl
    have hvals : fVals = vals := funext fun v => by
      unfold fVals
      rw [hb2, hsigned]
    have htag? : ∀ x, fTag? x = opt 4 (x.map tag) := fun x => by rw [fTag?, hopt, htag]
    have htime? : ∀ x, fTime? x = opt 6 (x.map b6) := fun x => by rw [fTime?, hopt, hb6]
    refine ⟨?tables, ?status, fun k => ?keyed, ?loop, ?regulators, fun q => ?queue, ?pedals, ?boards, fun hnone => ?noProbe,
      fun p hprobe => ?probed⟩
    case tables =>
      have hroute : (fun e : RouteEntry => routeBytes e.function ++ fBool e.mask) = route := funext fun e => by
        obtain ⟨f, mask⟩ := e
        rw [hbit]
        cases f with
        | unused | endMark | cue => rfl
        | note k => exact congrArg (· ++ bit mask) (by rw [routeBytes, hb1]; rfl)
        | pedal p => cases p <;> rfl
        | expr h b => cases h <;> cases b <;> rfl
      have hpoint : pointBytes = point := funext fun p => by
        unfold pointBytes
        rw [hb2]
      have hrecord : calBytes = record := funext fun r => by
        unfold calBytes
        rw [hpoint, hb2]
      unfold tableEntries
      rw [hroute, hrecord, hb1, hb2, hb4, hsigned]
      exact ⟨rfl, rfl, rfl, rfl, rfl, rfl, rfl, rfl⟩
    case status =>
      unfold statusData
      rw [allBoards_eq]
      simp only [htime?, hopt, hb1, hb2, hb3, hb6, hsigned, hbit, List.flatMap_cons, List.flatMap_nil, List.append_nil,
        fFlags, List.append_assoc]
      rfl
    case keyed =>
      have hstrike : fStrike = fun x => tag x.tag ++ vals x.vals ++ b6 x.fire ++ bit x.relWait := funext fun x => by
        unfold fStrike
        rw [htag, hvals, hb6, hbit]
      unfold keyData keyCalibData
      simp only [hstrike, htag?, htime?, hopt, htag, hb1, hb2, hb6, hsigned, hbit, List.append_assoc]
      rfl
    case loop =>
      unfold loopData
      simp only [hopt, hb1, hb2, hb4, hb6, hbit, i6_eq]
      rfl
    case regulators =>
      unfold regulatorsData regulatorData
      simp only [hb1, hb2, hbit, List.append_assoc]
      rfl
    case queue =>
      have hentry : entryData = entry := funext fun e => by
        unfold entryData
        rw [hb1, htag, hvals, hb6, hbit]
        rfl
      have hfire : recordData = fire := funext fun r => by
        obtain ⟨kind, t, time⟩ := r
        unfold recordData
        rw [hb1, htag, hvals, hb6]
        cases kind with
        | strike k v | release k => rfl
        | pedalDown p | pedalUp p => cases p <;> rfl
      unfold queueData
      rw [hentry, hfire, hb1, hb2]
      rfl
    case pedals =>
      have hmemory : ∀ r : PedalRec, (if r.memSet then some r.memTag else none).map
          (fun t => (t.map tag).getD (List.replicate 4 0)) =
            if r.memSet = true then some ((r.memTag.map tag).getD (List.replicate 4 0)) else none := fun r => by
        cases r.memSet <;> rfl
      unfold pedalsData pedalData
      simp only [htag?, htime?, hopt, htag, hb1, hb2, hb6, hbit, hmemory]
      rfl
    case boards =>
      have hboards : (List.ofFn fun b : Board => s.board b) = allBoards.map s.board := by
        rw [allBoards, List.map_ofFn]
        rfl
      have hkeys : ∀ p : Profile, (List.ofFn fun k : Key => p.keys[k]) = allKeys.map fun k => p.keys[k] := fun p => by
        rw [allKeys, List.map_ofFn]
        rfl
      unfold boardsData boardData profileData wireData
      simp only [hboards, hkeys, List.flatMap_map, hopt, Option.map_map, hb1, hb2, hbit]
      rfl
    case noProbe =>
      unfold probeData
      rw [hnone]
    case probed =>
      unfold probeData
      rw [hprobe]
      simp only [hopt, hb1, hb2, hb6, hsigned, hbit, keyNumber]
      rfl

end Sys2Proof.Machine

namespace Sys2Proof.Machine

/-! ### What the agreement of keys and pedals reads -/

/-- The profile, which boards are in service and their limits. -/
structure SameService (s t : State) : Prop where
  profile : t.port.profile = s.port.profile
  enabled : ∀ b, t.boardEnabled b = s.boardEnabled b
  params : ∀ b, (t.board b).params = (s.board b).params

/-- The service, the slots in flight and the Deferral List. -/
structure SameSlots (s t : State) : Prop extends SameService s t where
  inFlight : ∀ b, (t.board b).inFlight = (s.board b).inFlight
  total : t.sched.total = s.sched.total
  deferral : t.sched.deferral = s.sched.deferral

/-- A key keeps its phase, its timers and its current tag, and no strike comes to be pending. -/
structure KeyRec.Still (r r' : KeyRec) : Prop where
  phase : r'.phase = r.phase
  pulseEnd : r'.pulseEnd = r.pulseEnd
  holdLimit : r'.holdLimit = r.holdLimit
  returnTimer : r'.returnTimer = r.returnTimer
  current : r'.current = r.current
  pending : r.pending = none → r'.pending = none

/-- A pedal keeps its phase and its engage end. -/
structure PedalRec.Still (r r' : PedalRec) : Prop where
  phase : r'.phase = r.phase
  relWait : r'.relWait = r.relWait
  engageEnd : r'.engageEnd = r.engageEnd

/-- A pedal keeps what commands it. -/
structure PedalRec.SameSources (r r' : PedalRec) : Prop where
  inhibit : r'.inhibit = r.inhibit
  roll : r'.roll = r.roll
  manual : r'.manual = r.manual

/-- Nothing that the agreement of keys or of pedals reads changes. -/
structure Still (s t : State) : Prop where
  slots : SameSlots s t
  keys : ∀ k, (s.key k).Still (t.key k)
  pedals : ∀ p, (s.pedal p).Still (t.pedal p)
  sources : ∀ p, (s.pedal p).SameSources (t.pedal p)
  paused : t.perf.state = .paused ↔ s.perf.state = .paused

theorem SameService.refl (s : State) : SameService s s := ⟨rfl, fun _ => rfl, fun _ => rfl⟩

theorem SameService.trans {a b c : State} (h : SameService a b) (g : SameService b c) : SameService a c :=
  ⟨g.profile.trans h.profile, fun x => (g.enabled x).trans (h.enabled x), fun x => (g.params x).trans (h.params x)⟩

theorem SameService.of_port {s t : State} (h : t.port = s.port) : SameService s t := by
  have hboard : ∀ b, t.board b = s.board b := fun b => congrArg (fun q : ActionPort => q.boards[b]) h
  exact ⟨congrArg ActionPort.profile h, fun b => by rw [State.boardEnabled, hboard]; rfl, fun b => by rw [hboard]⟩

theorem SameSlots.refl (s : State) : SameSlots s s := ⟨.refl s, fun _ => rfl, rfl, rfl⟩

theorem SameSlots.trans {a b c : State} (h : SameSlots a b) (g : SameSlots b c) : SameSlots a c :=
  ⟨h.toSameService.trans g.toSameService, fun x => (g.inFlight x).trans (h.inFlight x), g.total.trans h.total,
    g.deferral.trans h.deferral⟩

theorem SameSlots.of_eq {s t : State} (hport : t.port = s.port) (htotal : t.sched.total = s.sched.total)
    (hdeferral : t.sched.deferral = s.sched.deferral) : SameSlots s t :=
  ⟨.of_port hport, fun b => congrArg (fun q : ActionPort => q.boards[b].inFlight) hport, htotal, hdeferral⟩

theorem KeyRec.Still.refl (r : KeyRec) : r.Still r := ⟨rfl, rfl, rfl, rfl, rfl, id⟩

theorem KeyRec.Still.trans {a b c : KeyRec} (h : a.Still b) (g : b.Still c) : a.Still c :=
  ⟨g.phase.trans h.phase, g.pulseEnd.trans h.pulseEnd, g.holdLimit.trans h.holdLimit, g.returnTimer.trans h.returnTimer,
    g.current.trans h.current, fun x => g.pending (h.pending x)⟩

theorem PedalRec.Still.refl (r : PedalRec) : r.Still r := ⟨rfl, rfl, rfl⟩

theorem PedalRec.Still.trans {a b c : PedalRec} (h : a.Still b) (g : b.Still c) : a.Still c :=
  ⟨g.phase.trans h.phase, g.relWait.trans h.relWait, g.engageEnd.trans h.engageEnd⟩

theorem PedalRec.SameSources.refl (r : PedalRec) : r.SameSources r := ⟨rfl, rfl, rfl⟩

theorem PedalRec.SameSources.trans {a b c : PedalRec} (h : a.SameSources b) (g : b.SameSources c) : a.SameSources c :=
  ⟨g.inhibit.trans h.inhibit, g.roll.trans h.roll, g.manual.trans h.manual⟩

theorem Still.refl (s : State) : Still s s := ⟨.refl s, fun _ => .refl _, fun _ => .refl _, fun _ => .refl _, .rfl⟩

theorem Still.trans {a b c : State} (h : Still a b) (g : Still b c) : Still a c :=
  ⟨h.slots.trans g.slots, fun k => (h.keys k).trans (g.keys k), fun p => (h.pedals p).trans (g.pedals p),
    fun p => (h.sources p).trans (g.sources p), g.paused.trans h.paused⟩

theorem Still.ite {c : Prop} [Decidable c] {s t u : State} (h : Still s t) (g : Still s u) : Still s (if c then t else u) := by
  split
  · exact h
  · exact g

theorem pedal_congr {s t : State} (h : t.pedals = s.pedals) (p : Pedal) : t.pedal p = s.pedal p := by
  cases p
  · exact congrArg PedalUnit.sustain h
  · exact congrArg PedalUnit.soft h

/-- A change of the Scheduler that spares the list and the slots, on otherwise unchanged targets. -/
theorem Still.of_eq {s t : State} (hslots : SameSlots s t) (hkeys : t.keys = s.keys) (hpedals : t.pedals = s.pedals)
    (hpaused : t.perf.state = .paused ↔ s.perf.state = .paused) : Still s t := by
  refine ⟨hslots, fun k => ?_, fun p => ?_, fun p => ?_, hpaused⟩
  · rw [key_congr hkeys]
    exact .refl _
  · rw [pedal_congr hpedals]
    exact .refl _
  · rw [pedal_congr hpedals]
    exact .refl _

theorem SameTargets.still {s t : State} (h : SameTargets s t) (hpaused : t.perf.state = .paused ↔ s.perf.state = .paused) :
    Still s t := .of_eq (.of_eq h.port (by rw [h.sched]) (by rw [h.sched])) h.keys h.pedals hpaused

/-- Targets that stay, and Performance Control with them. -/
theorem SameTargets.still_of_perf {s t : State} (h : SameTargets s t) (hperf : t.perf = s.perf) : Still s t :=
  h.still (by rw [hperf])

theorem Still.raise (f) (s : State) : Still s (raise f s) := (SameTargets.raise f s).still .rfl

theorem Still.count (c) (s : State) : Still s (count c s) := (SameTargets.count c s).still .rfl

theorem Still.countBy (n c) (s : State) : Still s (countBy n c s) := (SameTargets.withMgmt _ s).still .rfl

theorem Still.upd (k : Key) (f : KeyRec → KeyRec) (s : State)
    (h : (s.key k).Still (f (s.key k)) := by exact ⟨rfl, rfl, rfl, rfl, rfl, id⟩) : Still s (updateKey k f s) := by
  refine ⟨.of_eq rfl rfl rfl, fun j => ?_, fun _ => .refl _, fun _ => .refl _, .rfl⟩
  rw [key_updateKey]
  split
  · next hj => exact hj ▸ h
  · exact .refl _

theorem Still.mapKeys {f : Key → KeyRec → KeyRec} {s : State} (h : ∀ k, (s.key k).Still (f k (s.key k))) :
    Still s (mapKeys f s) := by
  refine ⟨.of_eq (mapKeys_port f s) (by rw [mapKeys_sched]) (by rw [mapKeys_sched]), fun k => ?_, fun p => ?_, fun p => ?_, ?_⟩
  · rw [key_mapKeys]
    exact h k
  · rw [pedal_congr (mapKeys_pedals f s)]
    exact .refl _
  · rw [pedal_congr (mapKeys_pedals f s)]
    exact .refl _
  · rw [mapKeys_perf]

theorem Still.updPedal (p : Pedal) (f : PedalRec → PedalRec) (s : State)
    (h : (s.pedal p).Still (f (s.pedal p)) := by exact ⟨rfl, rfl, rfl⟩)
    (hsources : (s.pedal p).SameSources (f (s.pedal p)) := by exact ⟨rfl, rfl, rfl⟩) : Still s (updatePedal p f s) := by
  refine ⟨.of_eq (updatePedal_port p f s) (by rw [updatePedal_sched]) (by rw [updatePedal_sched]), fun k => ?_, fun q => ?_,
    fun q => ?_, by rw [updatePedal_perf]⟩
  · rw [key_congr (updatePedal_keys p f s)]
    exact .refl _
  · rw [pedal_updatePedal]
    split
    · next hq => exact hq ▸ h
    · exact .refl _
  · rw [pedal_updatePedal]
    split
    · next hq => exact hq ▸ hsources
    · exact .refl _

/-! ### The Calibration Unit's records -/

theorem Still.finishProbe (f) (s : State) : Still s (finishProbe f s) := by
  unfold Machine.finishProbe
  split
  · exact .ite (((SameTargets.withCalib _ s).trans (.raise _ _)).still .rfl) (.refl s)
  · exact .refl s

theorem Still.endProbe (tag cause) (s : State) : Still s (endProbe tag cause s) := .ite (.finishProbe _ s) (.refl s)

theorem Still.countLate (st) (s : State) : Still s (countLate st s) :=
  ((Still.count _ s).trans (.raise _ _)).trans (.endProbe _ _ _)

theorem Still.freeze (third k) (s : State) : Still s (freeze third k s) :=
  .ite ((Still.upd k _ _).trans (.raise _ _)) (.refl s)

theorem Still.missStrike (k) (s : State) : Still s (missStrike k s) :=
  ((Still.count _ s).trans (.upd k _ _)).trans (.freeze _ _ _)

theorem Still.restRecord (k) (s : State) : Still s (restRecord k s) := by
  unfold Machine.restRecord
  dsimp only
  split
  · exact .ite (.ite (.upd k _ _) (.ite (.refl s) (.missStrike k s))) (.refl s)
  · exact .endProbe _ _ s
  · exact .refl s

theorem Still.recordReturn (k kind) (s : State) : Still s (recordReturn k kind s) := by
  cases kind with
  | timeout => exact (Still.upd k _ _).trans (.raise _ _)
  | fixed => exact .refl s

theorem Still.takeMeasurement (k m) (s : State) : Still s (takeMeasurement k m s) := by
  have hseen : Still s (updateKey k (fun r => { r with strikeSeen := true }) s) := .upd k _ _
  have houtlier : ∀ t, Still t (takeOutlier k t) := fun t =>
    ((Still.count _ t).trans (.upd k _ _)).trans (.freeze _ _ _)
  have herror : ∀ e t, Still t (takeError k e t) := fun e t => .upd k _ _
  unfold Machine.takeMeasurement
  dsimp only
  exact .ite ((hseen.trans (.ite (houtlier _) (herror _ _))).trans (.finishProbe _ _))
    (hseen.trans (.ite (houtlier _) (herror _ _)))

theorem Still.observeStrike (k) (s : State) : Still s (observeStrike k s) := by
  have hdown : Still s (updateKey k (fun r => { r with observed := .down }) s) := .upd k _ _
  unfold Machine.observeStrike
  split
  · exact .ite hdown (.refl s)
  · exact hdown
  · exact hdown
  · exact hdown
  · exact hdown
  · exact .refl s

/-- A STRIKE report is a matter of the Calibration Unit alone (R154). -/
theorem Still.takeStrikeReport (k m) (s : State) : Still s (takeStrikeReport k m s) := by
  have hjudged : Still s (if ((s.key k).pulseSent && !(s.key k).strikeSeen) = true then
      if ((s.key k).cutShort || s.isEndedProbe (s.key k).current) = true then
        updateKey k (fun r => { r with strikeSeen := true }) s
      else Machine.takeMeasurement k m s
    else s) := .ite (.ite (.upd k _ _) (.takeMeasurement k m s)) (.refl s)
  unfold Machine.takeStrikeReport
  dsimp only
  refine Still.trans ?_ (.observeStrike k _)
  split
  · exact hjudged
  · exact hjudged
  · exact hjudged
  · exact .refl s
  · exact .refl s
  · exact .refl s

/-! ### The owed and refused tags -/

theorem Still.setOwed (kind tag) (s : State) : Still s (setOwed kind tag s) := by
  cases kind with
  | strike k v => exact .upd k (fun r => { r with owed := tag }) s
  | release k => exact .upd k (fun r => { r with owed := tag }) s
  | pedalDown p => exact .updPedal p (fun r => { r with owed := tag }) s
  | pedalUp p => exact .updPedal p (fun r => { r with owed := tag }) s

theorem Still.setRefused (kind tag) (s : State) : Still s (setRefused kind tag s) := by
  cases kind with
  | strike k v => exact .upd k (fun r => { r with refused := tag }) s
  | release k => exact .upd k (fun r => { r with refused := tag }) s
  | pedalDown p => exact .updPedal p (fun r => { r with refused := tag }) s
  | pedalUp p => exact .updPedal p (fun r => { r with refused := tag }) s

theorem Still.setOwedCount (n) (s : State) : Still s (setOwedCount n s) := .of_eq (.of_eq rfl rfl rfl) rfl rfl .rfl

theorem Still.withQueue (q : List FireRecord) (s : State) : Still s { s with sched := { s.sched with queue := q } } :=
  .of_eq (.of_eq rfl rfl rfl) rfl rfl .rfl

end Sys2Proof.Machine

namespace Sys2Proof.Machine

/-! ### The requests and the line leave Performance Control's state, or move it among those outside PAUSED -/

section
variable (s : State)

theorem takeRoute_perf (l) : (takeRoute l s).1.perf = s.perf := by
  unfold takeRoute
  dsimp only
  repeat' split
  all_goals rfl

theorem takeDetect_perf (l) : (takeDetect l s).1.perf = s.perf := by
  unfold takeDetect
  dsimp only
  split_ifs <;> rfl

theorem takeShading_perf (l) : (takeShading l s).1.perf = s.perf := by
  unfold takeShading
  dsimp only
  split_ifs <;> rfl

theorem takeCurve_perf (l) : (takeCurve l s).1.perf = s.perf := by
  unfold takeCurve
  dsimp only
  split_ifs <;> rfl

theorem takeVoicing_perf (l) : (takeVoicing l s).1.perf = s.perf := by
  unfold takeVoicing
  dsimp only
  split_ifs <;> rfl

theorem takeCalibration_perf (l) : (takeCalibration l s).1.perf = s.perf := by
  unfold takeCalibration
  dsimp only
  split_ifs <;> rfl

theorem takeTiming_perf (l) : (takeTiming l s).1.perf = s.perf := by
  rw [takeTiming_eq]
  dsimp only
  split_ifs <;> rfl

theorem takeAdaptParam_perf (l) : (takeAdaptParam l s).1.perf = s.perf := by
  unfold takeAdaptParam
  dsimp only
  split_ifs <;> rfl

theorem takeMask_perf (on tracks) : (takeMask on tracks s).1.perf = s.perf := by
  unfold takeMask
  split_ifs <;> rfl

theorem takeTimebase_perf (b) : (takeTimebase b s).1.perf = s.perf := by
  unfold takeTimebase
  split_ifs <;> rfl

theorem takeLoopOn_perf : (takeLoopOn s).perf = s.perf := by
  unfold takeLoopOn
  split_ifs
  · exact setLoop_perf _ s
  · rfl

theorem takeLoopOff_perf : (takeLoopOff s).1.perf = s.perf := by
  unfold takeLoopOff
  split_ifs
  · rfl
  · rfl
  · exact setLoop_perf _ s

theorem tick_perf : (tick s).perf = s.perf := by
  unfold tick
  split_ifs <;> rfl

theorem reacquire_perf (t) : (reacquire t s).perf = s.perf := by
  unfold reacquire
  split_ifs
  · rfl
  · exact setLoop_perf _ s

theorem stampLine_perf (n) : (stampLine n s).perf = s.perf := by
  have hperf : ∀ t l (u : State), u.perf = s.perf → (recordLine n t (switchAt t l u)).perf = s.perf := fun t l u e =>
    (congrArg State.perf (recordLine_switchAt n t l u).2.2.2).trans e
  unfold stampLine
  split
  · exact hperf _ _ _ rfl
  · exact hperf _ _ _ rfl
  · dsimp only
    refine hperf _ _ _ ?_
    split_ifs <;> rfl

theorem takeSetCue_state (n) : (takeSetCue n s).1.perf.state = s.perf.state := by
  unfold takeSetCue
  split_ifs <;> rfl
end

/-- A performance begins outside PAUSED (R3). -/
theorem Still.beginPerformance {s : State} (hs : s.perf.state = .stopped) : Still s (beginPerformance s) := by
  refine ⟨.of_eq rfl rfl rfl, fun _ => .refl _, fun p => ?_, fun p => ?_, ?_⟩
  · cases p <;> exact ⟨rfl, rfl, rfl⟩
  · cases p <;> exact ⟨rfl, rfl, rfl⟩
  · rw [hs]
    exact iff_of_false nofun nofun

/-- A fault of a board out of service leaves it there. -/
theorem Still.faultAgain {b : Board} {s : State} (hout : s.boardEnabled b = false) (reason : FaultReason) :
    Still s (updateBoard b (fun r => { r with service := .disabled .fault, faultReason := some reason }) s) := by
  have hboard := fun c => board_updateBoard c b (fun r => { r with service := .disabled .fault, faultReason := some reason }) s
  refine .of_eq ⟨⟨rfl, fun c => ?_, fun c => ?_⟩, fun c => ?_, rfl, rfl⟩ rfl rfl .rfl
  · unfold State.boardEnabled
    rw [hboard]
    split
    · next hc =>
      rw [hc]
      exact hout.symm
    · rfl
  · rw [hboard]
    split
    · next hc => rw [hc]
    · rfl
  · rw [hboard]
    split
    · next hc => rw [hc]
    · rfl

/-! ### A property that keys, pedals and boards keep -/

/-- What the rules of keys, pedals and boards keep: from these rules the property follows for every rule. -/
structure Agreement (P : State → Prop) : Prop where
  still : ∀ {s t}, Still s t → P s → P t
  powerOn : ∀ s, P (powerOn s)
  fullReset : ∀ s, P (fullReset s)
  strikeReaches : ∀ k st {s}, P s → P (strikeReaches k st s)
  releaseReaches : ∀ k tag {s}, P s → P (releaseReaches k tag s)
  changePedal : ∀ p f {s}, (∀ r, PedalRec.Still r (f r)) → P s → P (changePedal p f s)
  enterPaused : ∀ {s}, P s → P (enterPaused s)
  stopAfterCut : ∀ reason {s}, P s → P (stopWith reason (cut s))
  resumePlaying : ∀ {s}, P s → P (resumePlaying s)
  takeProfile : ∀ r {s}, s.port.profile = none → P s → P (takeProfile r s).1
  endEngage : ∀ p {s}, (s.pedal p).phase = .engaging → P s → P (endEngage p s)
  enableBoard : ∀ b {s}, P s → P (enableBoard b s)
  disableBoard : ∀ b reason fault {s}, P s → P (disableBoard b reason fault s)
  endPulse : ∀ k {s}, (s.key k).phase = .striking → P s → P (endPulse k s)
  letGo : ∀ k {s}, (s.key k).phase = .held → P s → P (letGo k s)
  keyRests : ∀ k {s}, (s.key k).phase = .releasing → P s → P (keyRests k s)

section
variable {P : State → Prop} (hP : Agreement P)
include hP

/-! The Fire Queue hands its records on. -/

theorem Agreement.changePedals {f : PedalRec → PedalRec} (hf : ∀ r, PedalRec.Still r (f r)) {s : State} (h : P s) :
    P (changePedals f s) := hP.changePedal _ f hf (hP.changePedal _ f hf h)

theorem Agreement.handRecord (r : FireRecord) {s : State} (h : P s) : P (handRecord r s) := by
  unfold Machine.handRecord
  split
  · exact hP.strikeReaches _ _ h
  · exact hP.releaseReaches _ _ h
  · exact hP.changePedal _ _ (fun _ => ⟨rfl, rfl, rfl⟩) h
  · unfold takePedalUp
    split
    · exact hP.changePedal _ _ (fun _ => ⟨rfl, rfl, rfl⟩) h
    · exact h

theorem Agreement.dispatchHead {s : State} (h : P s) : P (dispatchHead s) := by
  unfold Machine.dispatchHead
  split
  · exact hP.handRecord _ (hP.still (.withQueue _ s) h)
  · exact h

theorem Agreement.dispatchFirst (n : Nat) {s : State} (h : P s) : P (dispatchFirst n s) := by
  induction n generalizing s with
  | zero => exact h
  | succ n ih => exact ih (hP.dispatchHead h)

theorem Agreement.enqueue (r : FireRecord) {s : State} (h : P s) : P (enqueue r s) := by
  have hinserted := hP.still (.withQueue (insertRecord r s.sched.queue) s) h
  unfold Machine.enqueue
  dsimp only
  split
  · exact hP.dispatchFirst _ hinserted
  · exact hinserted

theorem Agreement.admitOnset (r : FireRecord) {s : State} (h : P s) : P (admitOnset r s) := by
  unfold Machine.admitOnset
  split
  · exact hP.enqueue _ (hP.still ((Still.setOwedCount _ s).trans (.setOwed _ _ _)) h)
  · exact hP.still (((Still.setRefused _ _ s).trans (.count _ _)).trans (.raise _ _)) h

theorem Agreement.admitRelease (r : FireRecord) {s : State} (h : P s) : P (admitRelease r s) := by
  unfold Machine.admitRelease
  split
  · exact hP.enqueue _ (hP.still ((Still.setOwedCount _ s).trans (.setOwed _ _ _)) h)
  · split
    · exact hP.still (.setRefused _ _ s) h
    · exact h

/-! An accepted line hands its transitions on. -/

theorem Agreement.handClosing (f line opening) {s : State} (h : P s) : P (handClosing f line opening s) := by
  unfold Machine.handClosing
  split
  · exact hP.admitRelease _ h
  · exact hP.admitRelease _ h
  all_goals exact h

theorem Agreement.handOpening (f line) {s : State} (h : P s) : P (handOpening f line s) := by
  unfold Machine.handOpening
  split
  · exact hP.admitOnset _ (hP.still ((SameTargets.noteStrike _ _ _ _ s).still_of_perf rfl) h)
  · exact hP.admitOnset _ (hP.still (.updPedal _ _ s) h)
  all_goals exact h

theorem Agreement.handClosings (v) {s : State} (h : P s) : P (handClosings v s) := by
  refine foldl_keeps _ (fun s t hs => ?_) _ h
  split
  · exact hP.handClosing _ _ _ hs
  · exact hs

theorem Agreement.handOpenings (v) {s : State} (h : P s) : P (handOpenings v s) := by
  refine foldl_keeps _ (fun s t hs => ?_) _ h
  split
  · exact hP.handOpening _ _ hs
  · exact hs

/-- An END onset moves PLAYING to DRAINING. -/
theorem Agreement.endOnset (e : Nat) {s : State} (hs : s.perf.state ≠ .paused) (h : P s) : P (endOnset e s) := by
  have hclosed : P (endClosed s) := hP.still ((SameTargets.withReader _ s).still_of_perf (by dsimp only [endClosed])) h
  have hhanded : P (endHanded e s) := by
    refine foldl_keeps _ (fun s t hs => ?_) _ hclosed
    split
    · exact hP.handClosing _ _ _ hs
    · exact hs
  rw [endOnset_eq]
  refine hP.still (((SameTargets.withPerf _ _).trans (.raise _ _)).still ?_) hhanded
  rw [endHanded_perf]
  exact iff_of_false nofun hs

theorem Agreement.readLine (n : Nat) (cells : Vector Byte 128) {s : State} (hs : s.perf.state = .playing) (h : P s) :
    P (readLine n cells s) := by
  unfold Machine.readLine
  dsimp only
  generalize trackSteps n cells s = v
  have hperf : (stepRegulators (alignLine cells (setDetectors v s))).perf = s.perf :=
    (alignLine_perf_clock cells (setDetectors v s)).1.trans (by dsimp only [setDetectors])
  have hshaded := hP.still
    ((((SameTargets.setDetectors v s).trans (.alignLine _ _)).trans (.stepRegulators _)).still_of_perf hperf) h
  generalize stepRegulators (alignLine cells (setDetectors v s)) = u at hperf hshaded
  have hon : HandsOn u (Machine.handOpenings v (Machine.handClosings v u)) :=
    (HandsOn.handClosings v u).trans (.handOpenings v _)
  have hhanded := hP.handOpenings v (hP.handClosings v hshaded)
  have hstate := handCues_state v (Machine.handOpenings v (Machine.handClosings v u))
  have hcues := hP.still ((SameTargets.handCues v _).still (by rw [hstate])) hhanded
  unfold handEnd
  split
  · exact hcues
  · refine hP.endOnset _ ?_ hcues
    rw [hstate, hon.perf, hperf, hs]
    nofun

theorem Agreement.acceptLine (n : Nat) (cells : Vector Byte 128) {s : State} (hs : s.perf.state ≠ .paused) (h : P s) :
    P (acceptLine n cells s) := by
  have hplaying := performLine_playing n (stampLine n s)
  have hstill : Still s (performLine n (stampLine n s)) :=
    ((SameTargets.stampLine n s).trans (.performLine n _)).still (iff_of_false (by rw [hplaying]; nofun) hs)
  have hread := hP.readLine n cells hplaying (hP.still hstill h)
  unfold Machine.acceptLine reachPause
  split
  · exact hP.enterPaused hread
  · exact hread

theorem Agreement.offerLine (n : Nat) (cells : Vector Byte 128) {s : State} (h : P s) : P (offerLine n cells s) := by
  have hcount : ∀ c, P (count c s) := fun c => hP.still (.count c s) h
  unfold Machine.offerLine
  split
  · exact hcount _
  · next hs => exact hP.acceptLine n cells (by rw [hs]; nofun) h
  · next hs =>
    split
    · exact hcount _
    · exact hP.acceptLine n cells (by rw [hs]; nofun) h
  · exact hcount _
  · exact hcount _

/-! Performance Control. -/

theorem Agreement.settle {s : State} (h : P s) : P (settle s) := by
  have hdrained : P (drainCheck s) := by
    unfold drainCheck
    split
    · next hdrains =>
      have hstate : s.perf.state = .draining := of_due hdrains
      have hpedals := hP.changePedals (f := PedalRec.withoutRoll) (fun _ => ⟨rfl, rfl, rfl⟩) h
      have hperf : (Machine.changePedals PedalRec.withoutRoll s).perf = s.perf := (HandsOn.changePedals _ s).perf
      refine hP.still
        (SameTargets.still (((SameTargets.completeSwitch _).trans (.withPerf _ _)).trans (.raise _ _)) ?_) hpedals
      rw [hperf, hstate]
      exact iff_of_false nofun nofun
    · exact h
  exact hP.still ((SameTargets.raiseIf _ _ _).still_of_perf (raiseIf_perf _ _ _)) hdrained

theorem Agreement.takeStop {s : State} (h : P s) : P (takeStop s) := by
  unfold Machine.takeStop
  split
  · exact h
  · exact hP.still (.raise _ _) (hP.stopAfterCut _ h)

theorem Agreement.loseSource {s : State} (h : P s) : P (loseSource s) := by
  refine hP.still (SameTargets.still_of_perf ?_ ?_) (hP.stopAfterCut .lost h)
  · exact ((SameTargets.withClock _ _).trans (.reacquire _ _)).trans ((SameTargets.raise _ _).trans (.raise _ _))
  · exact reacquire_perf _ _

theorem Agreement.resetPerformance {s : State} (h : P s) : P (resetPerformance s) := by
  have hcleared := hP.still (((SameTargets.withPerf { (stopWith .reset (cut s)).perf with cues := [], pausePoint := none }
    (stopWith .reset (cut s))).trans
      (.withReader { (stopWith .reset (cut s)).reader with rollMarks := 0 } _)).still .rfl) (hP.stopAfterCut .reset h)
  exact hP.still (((SameTargets.withMgmt _ _).trans (.withMgmt _ _)).still .rfl)
    (hP.still (.mapKeys (f := fun _ r => { r with snapshot := r.observed }) fun _ => ⟨rfl, rfl, rfl, rfl, rfl, id⟩)
      hcleared)

theorem Agreement.takeStart {s : State} (h : P s) : P (takeStart s).1 := by
  unfold Machine.takeStart
  split_ifs with hstate
  · exact h
  · exact h
  · exact h
  · exact hP.still (.beginPerformance (not_not.1 hstate)) h

theorem Agreement.takePause {s : State} (h : P s) : P (takePause s).1 := by
  unfold Machine.takePause
  split
  · exact hP.enterPaused (hP.still ((SameTargets.withPerf _ s).still .rfl) h)
  · exact h

theorem Agreement.takeResume {s : State} (h : P s) : P (takeResume s).1 := by
  unfold Machine.takeResume
  split
  · exact hP.resumePlaying h
  · exact h

theorem Agreement.takeProbe (r : RawProbe) {s : State} (h : P s) : P (takeProbe r s).1 := by
  unfold Machine.takeProbe
  split
  · exact h
  · split_ifs
    any_goals exact h
    exact hP.strikeReaches _ _ (hP.enqueue _ (hP.still ((SameTargets.withCalib _ s).still .rfl) h))

/-! Keys and boards. -/

theorem Agreement.endReturn (k : Key) {s : State} (hphase : (s.key k).phase = .releasing) (h : P s) :
    P (endReturn k s) := by
  unfold Machine.endReturn
  split
  · have hrecorded := Still.recordReturn k ‹_› s
    exact hP.keyRests k (by rw [(hrecorded.keys k).phase, hphase]) (hP.still hrecorded h)
  · exact h

theorem Agreement.takeRestReport (k : Key) {s : State} (h : P s) : P (takeRestReport k s) := by
  have hup : Still s (updateKey k (fun r => { r with observed := .up }) s) := .upd k _ s
  unfold Machine.takeRestReport
  split
  · exact h
  · next hphase => exact hP.keyRests k (by rw [(hup.keys k).phase, hphase]) (hP.still hup h)
  all_goals exact hP.still hup h

theorem Agreement.takeEnable (b : Board) {s : State} (h : P s) : P (takeEnable b s).1 := by
  rw [takeEnable_eq]
  split_ifs
  · exact h
  · exact h
  · exact h
  · exact hP.enableBoard b h

theorem Agreement.takeDisable (b : Board) {s : State} (h : P s) : P (takeDisable b s).1 := by
  unfold Machine.takeDisable
  split
  · exact hP.disableBoard _ _ _ h
  · exact h

theorem Agreement.takeFault (b : Board) (reason : FaultReason) {s : State} (h : P s) : P (takeFault b reason s) := by
  unfold Machine.takeFault
  refine hP.still (.raise _ _) ?_
  split
  · exact hP.disableBoard _ _ _ h
  · next hout => exact hP.still (.faultAgain (Bool.eq_false_iff.2 hout) reason) h

/-- The property is kept by every rule. -/
theorem Agreement.kept : Kept P where
  blocks hb h := hP.still (hb.targets.still_of_perf hb.perf) h
  settle h := hP.settle h
  tick {s} h := hP.still ((SameTargets.tick s).still_of_perf (tick_perf s)) h
  powerOn := hP.powerOn
  fullReset := hP.fullReset
  offerLine n cells _ h := hP.offerLine n cells h
  takeProfile r _ hnone h := hP.takeProfile r hnone h
  takeRoute l s h := hP.still ((SameTargets.takeRoute l s).still_of_perf (takeRoute_perf s l)) h
  takeDetect l s h := hP.still ((SameTargets.takeDetect l s).still_of_perf (takeDetect_perf s l)) h
  takeShading l s h := hP.still ((SameTargets.takeShading l s).still_of_perf (takeShading_perf s l)) h
  takeCurve l s h := hP.still ((SameTargets.takeCurve l s).still_of_perf (takeCurve_perf s l)) h
  takeVoicing l s h := hP.still ((SameTargets.takeVoicing l s).still_of_perf (takeVoicing_perf s l)) h
  takeCalibration l s h := hP.still ((SameTargets.takeCalibration l s).still_of_perf (takeCalibration_perf s l)) h
  takeTiming l s h := hP.still ((SameTargets.takeTiming l s).still_of_perf (takeTiming_perf s l)) h
  takeAdaptParam l s h := hP.still ((SameTargets.takeAdaptParam l s).still_of_perf (takeAdaptParam_perf s l)) h
  takeMask on tracks s h := hP.still ((SameTargets.takeMask on tracks s).still_of_perf (takeMask_perf s on tracks)) h
  takeStart h := hP.takeStart h
  takeStop h := hP.takeStop h
  takePause h := hP.takePause h
  pausePoint _ h := hP.enterPaused h
  takeResume h := hP.takeResume h
  loseSource _ h := hP.loseSource h
  takeSetCue n s h := hP.still ((SameTargets.takeSetCue n s).still (by rw [takeSetCue_state])) h
  filterCues c s h := hP.still ((SameTargets.setCues _ s).still .rfl) h
  clearCues {s} h := hP.still ((SameTargets.setCues _ s).still .rfl) h
  takeTimebase b s h := hP.still ((SameTargets.takeTimebase b s).still_of_perf (takeTimebase_perf s b)) h
  takeLoopOn {s} h := hP.still ((SameTargets.takeLoopOn s).still_of_perf (takeLoopOn_perf s)) h
  takeLoopOff {s} h := hP.still ((SameTargets.takeLoopOff s).still_of_perf (takeLoopOff_perf s)) h
  manual p on s h := hP.changePedal p (fun r => { r with manual := on }) (fun _ => ⟨rfl, rfl, rfl⟩) h
  inhibit p on s h := hP.changePedal p (fun r => { r with inhibit := on }) (fun _ => ⟨rfl, rfl, rfl⟩) h
  endEngage p _ hphase h := hP.endEngage p hphase h
  takeProbe r _ h := hP.takeProbe r h
  setAdapt on s h := hP.still ((SameTargets.withCalib _ s).still .rfl) h
  adaptReset k s h := hP.still (.upd k KeyRec.adaptReset s) h
  thawed k s h := hP.still (.upd k KeyRec.thawed s) h
  adaptResetAll h := hP.still (.mapKeys (f := fun _ r => r.adaptReset) fun _ => ⟨rfl, rfl, rfl, rfl, rfl, id⟩) h
  copySnapshots h :=
    hP.still (.mapKeys (f := fun _ r => { r with snapshot := r.observed }) fun _ => ⟨rfl, rfl, rfl, rfl, rfl, id⟩) h
  takeEnable b _ h := hP.takeEnable b h
  takeDisable b _ h := hP.takeDisable b h
  resetPerformance h := hP.resetPerformance h
  dispatchHead h := hP.dispatchHead h
  endPulse k _ hphase h := hP.endPulse k hphase h
  holdLimit k _ hphase h := hP.letGo k hphase h
  endReturn k _ hphase h := hP.endReturn k hphase h
  takeStrikeReport k m s h := hP.still (.takeStrikeReport k m s) h
  takeRestReport k _ h := hP.takeRestReport k h
  takeFault b reason _ h := hP.takeFault b reason h
end

end Sys2Proof.Machine

namespace Sys2Proof.Machine

/-! ### What spares the pedals -/

/-- The pedals keep their phases and what commands them, and the boards their service. -/
structure Spares (s t : State) : Prop where
  profile : t.port.profile = s.port.profile
  enabled : ∀ b, t.boardEnabled b = s.boardEnabled b
  pedals : ∀ p, (s.pedal p).Still (t.pedal p)
  sources : ∀ p, (s.pedal p).SameSources (t.pedal p)

theorem Spares.refl (s : State) : Spares s s := ⟨rfl, fun _ => rfl, fun _ => .refl _, fun _ => .refl _⟩

theorem Spares.trans {a b c : State} (h : Spares a b) (g : Spares b c) : Spares a c :=
  ⟨g.profile.trans h.profile, fun x => (g.enabled x).trans (h.enabled x), fun p => (h.pedals p).trans (g.pedals p),
    fun p => (h.sources p).trans (g.sources p)⟩

theorem Spares.ite {c : Prop} [Decidable c] {s t u : State} (h : Spares s t) (g : Spares s u) :
    Spares s (if c then t else u) := by
  split
  · exact h
  · exact g

theorem Still.spares {s t : State} (h : Still s t) : Spares s t :=
  ⟨h.slots.profile, h.slots.enabled, h.pedals, h.sources⟩

theorem Spares.of_pedals {s t : State} (hprofile : t.port.profile = s.port.profile)
    (henabled : ∀ b, t.boardEnabled b = s.boardEnabled b) (hpedals : t.pedals = s.pedals) : Spares s t := by
  refine ⟨hprofile, henabled, fun p => ?_, fun p => ?_⟩
  · rw [pedal_congr hpedals]
    exact .refl _
  · rw [pedal_congr hpedals]
    exact .refl _

theorem Spares.of_port {s t : State} (hport : t.port = s.port) (hpedals : t.pedals = s.pedals) : Spares s t :=
  .of_pedals (SameService.of_port hport).profile (SameService.of_port hport).enabled hpedals

theorem SameTargets.spares {s t : State} (h : SameTargets s t) : Spares s t := .of_port h.port h.pedals

theorem Spares.sched (c : Scheduler) (s : State) : Spares s { s with sched := c } := .of_port rfl rfl

theorem Spares.upd (k f) (s : State) : Spares s (updateKey k f s) := .of_port rfl rfl

theorem Spares.mapKeys (f) (s : State) : Spares s (mapKeys f s) := .of_port (mapKeys_port f s) (mapKeys_pedals f s)

theorem Spares.sendAll (l) (s : State) : Spares s (sendAll l s) := .of_port rfl rfl

theorem Spares.updateBoard (b : Board) (f : BoardRec → BoardRec) (s : State)
    (h : (f (s.board b)).service = (s.board b).service := by rfl) : Spares s (updateBoard b f s) := by
  refine .of_pedals rfl (fun c => ?_) rfl
  unfold State.boardEnabled
  rw [board_updateBoard]
  split
  · next hc => rw [h, hc]
  · rfl

theorem Spares.foldl {α} (f : State → α → State) (h : ∀ s a, Spares s (f s a)) (l : List α) (s : State) :
    Spares s (l.foldl f s) := by
  induction l generalizing s with
  | nil => exact .refl s
  | cons a l ih => exact (h s a).trans (ih _)

/-! What happens to keys spares the pedals. -/

theorem Spares.takeSlot (k) (s : State) : Spares s (takeSlot k s) := by
  unfold Machine.takeSlot
  split
  · exact (Spares.sched _ s).trans (.updateBoard _ (fun r => { r with inFlight := r.inFlight + 1 }) _)
  · exact .refl s

theorem Spares.dropSlot (k) (s : State) : Spares s (dropSlot k s) := by
  unfold Machine.dropSlot
  split
  · exact (Spares.sched _ s).trans (.updateBoard _ (fun r => { r with inFlight := r.inFlight - 1 }) _)
  · exact .refl s

theorem Spares.pulseKey (k st) (s : State) : Spares s (pulseKey k st s) :=
  ((Spares.takeSlot k s).trans (.sendAll _ _)).trans (.upd _ _ _)

theorem Spares.joinDeferral (k st) (s : State) : Spares s (joinDeferral k st s) := (Spares.sched _ s).trans (.upd _ _ _)

theorem Spares.offer (checked k st) (s : State) : Spares s (offer checked k st s) :=
  .ite (Still.countLate _ s).spares (.ite (.pulseKey _ _ s) (.joinDeferral _ _ s))

theorem Spares.park (k st) (s : State) : Spares s (park k st s) :=
  (Spares.ite (Still.count _ s).spares (.refl s)).trans (.upd _ _ _)

theorem Spares.strikeReaches (k st) (s : State) : Spares s (strikeReaches k st s) := by
  unfold Machine.strikeReaches
  split
  · exact .offer _ _ _ s
  · exact .park _ _ s
  · exact .park _ _ s
  · exact .park _ _ s
  · exact .park _ _ s
  · exact ((Still.count _ s).trans (.endProbe _ _ _)).spares

theorem Spares.letGo (k) (s : State) : Spares s (letGo k s) := (Spares.sendAll _ s).trans (.upd _ _ _)

theorem Spares.releaseReaches (k tag) (s : State) : Spares s (releaseReaches k tag s) :=
  .ite (.upd _ _ s) (.ite (.letGo k s) (.ite (.sched _ s) (.ite (.upd _ _ s) (.refl s))))

theorem Spares.restNotice (k) (s : State) : Spares s (restNotice k s) :=
  ((Spares.upd _ _ s).trans (Still.restRecord _ _).spares).trans (.upd _ _ _)

theorem Spares.dropEntry (e) (s : State) : Spares s (dropEntry e s) := by
  have hrested : Spares s (Machine.restNotice e.key (countLate e.strike (removeEntry e.key s))) :=
    ((Spares.sched _ s).trans (Still.countLate _ _).spares).trans (.restNotice _ _)
  unfold Machine.dropEntry
  dsimp only
  split
  · exact (hrested.trans (.upd _ _ _)).trans (.joinDeferral _ _ _)
  · exact hrested

theorem Spares.arbitrate (n) (s : State) : Spares s (arbitrate n s) := by
  induction n generalizing s with
  | zero => exact .refl s
  | succ n ih =>
    unfold Machine.arbitrate
    split
    · split
      · exact .refl s
      · exact .ite ((Spares.dropEntry _ s).trans (ih _)) (((Spares.sched _ s).trans (.pulseKey _ _ _)).trans (ih _))
    · exact .refl s

theorem Spares.runArbiter (s : State) : Spares s (runArbiter s) := .arbitrate _ s

theorem Spares.arbiterUnlessPaused (s : State) : Spares s (arbiterUnlessPaused s) := .ite (.refl s) (.runArbiter s)

theorem Spares.keyRests (k) (s : State) : Spares s (keyRests k s) := by
  unfold Machine.keyRests
  dsimp only
  split
  · exact .ite (.restNotice k s) (((Spares.restNotice k s).trans (.upd _ _ _)).trans (.offer _ _ _ _))
  · exact .restNotice k s

theorem Spares.afterPulse (k) (s : State) : Spares s (afterPulse k s) :=
  .ite (.letGo k s) ((Spares.sendAll _ s).trans (.upd _ _ _))

theorem Spares.endPulse (k) (s : State) : Spares s (endPulse k s) :=
  (((Spares.upd _ _ s).trans (.dropSlot _ _)).trans (.arbiterUnlessPaused _)).trans (.afterPulse _ _)

theorem Spares.joinPending (s : State) : Spares s (joinPending s) := by
  refine Spares.foldl _ (fun s k => ?_) _ s
  split
  · exact (Spares.upd _ _ s).trans (.joinDeferral _ _ _)
  · exact .refl s

theorem Spares.cutKeys (s : State) : Spares s (cutKeys s) := by
  have hsent : Spares s (cutSent s) := (Still.finishProbe _ s).spares.trans (.sendAll _ _)
  have hempty : ∀ u, Spares u (emptyScheduler u) := fun u => by
    refine .of_pedals rfl (fun b => ?_) rfl
    have hboard : (emptyScheduler u).board b = { u.board b with inFlight := 0 } := by simp [emptyScheduler, State.board]
    unfold State.boardEnabled
    rw [hboard]
  exact (hsent.trans (hempty _)).trans (.mapKeys _ _)

/-! ### The table of R87 and R88 -/

/-- A pedal waits to let go only in ENGAGING, where alone its engage end runs. -/
def PedalRec.Sound (r : PedalRec) : Prop := (r.relWait = true → r.phase = .engaging) ∧ (r.engageEnd ≠ none ↔ r.phase = .engaging)

theorem pedalsAgree_iff (s : State) : s.pedalsAgree ↔ ∀ p, s.commands p (s.pedal p) = (s.pedal p).towardDown ∧
    (s.pedal p).Sound := Iff.rfl

theorem PedalRec.Still.sound {r r' : PedalRec} (h : r.Still r') (hr : r.Sound) : r'.Sound := by
  unfold PedalRec.Sound
  rw [h.phase, h.relWait, h.engageEnd]
  exact hr

theorem PedalRec.Still.towardDown {r r' : PedalRec} (h : r.Still r') : r'.towardDown = r.towardDown := by
  unfold PedalRec.towardDown
  rw [h.phase, h.relWait]

/-- By the table of R88 a pedal comes to be driven toward what is commanded, its sources unchanged. -/
theorem follows_agrees {r : PedalRec} (h : r.Sound) (down : Bool) (width engageEnd : Nat) :
    (r.follows down width engageEnd).1.Sound ∧ (r.follows down width engageEnd).1.towardDown = down ∧
      r.SameSources (r.follows down width engageEnd).1 := by
  obtain ⟨hwait, hend⟩ := h
  unfold PedalRec.follows
  split
  · exact ⟨⟨nofun, iff_of_true nofun rfl⟩, rfl, ⟨rfl, rfl, rfl⟩⟩
  · next hphase =>
    refine ⟨⟨nofun, hend⟩, ?_, ⟨rfl, rfl, rfl⟩⟩
    simp [PedalRec.towardDown, hphase]
  · next hphase =>
    refine ⟨⟨fun _ => hphase, hend⟩, ?_, ⟨rfl, rfl, rfl⟩⟩
    simp [PedalRec.towardDown, hphase]
  · next hphase =>
    rw [hphase] at hwait hend
    exact ⟨⟨fun e => (nomatch hwait e), iff_of_false (fun e => (nomatch hend.1 e)) nofun⟩, rfl, ⟨rfl, rfl, rfl⟩⟩
  · next hphase =>
    refine ⟨⟨hwait, hend⟩, ?_, ⟨rfl, rfl, rfl⟩⟩
    simp [PedalRec.towardDown, hphase]
  · next hphase =>
    refine ⟨⟨hwait, hend⟩, ?_, ⟨rfl, rfl, rfl⟩⟩
    simp [PedalRec.towardDown, hphase]

theorem pedalWire_of_profile {s t : State} (h : t.port.profile = s.port.profile) (p : Pedal) :
    t.pedalWire p = s.pedalWire p := by
  unfold State.pedalWire
  rw [h]

theorem commands_congr {s t : State} {p : Pedal} {r r' : PedalRec} (hprofile : t.port.profile = s.port.profile)
    (henabled : ∀ b, t.boardEnabled b = s.boardEnabled b) (hsources : r.SameSources r') :
    t.commands p r' = s.commands p r := by
  unfold State.commands
  rw [pedalWire_of_profile hprofile, hsources.inhibit, hsources.roll, hsources.manual]
  simp only [henabled]

/-- What a pedal takes agrees with the state it is commanded to. -/
theorem pedalTakes_agrees {r : PedalRec} (h : r.Sound) (s : State) (p : Pedal) :
    s.commands p (s.pedalTakes p r).1 = (s.pedalTakes p r).1.towardDown ∧ (s.pedalTakes p r).1.Sound := by
  obtain ⟨hsound, htoward, hsources⟩ := follows_agrees h (s.commands p r) (s.engageWidth p) (s.expiry (s.engageWidth p))
  have hcommands := commands_congr (s := s) (t := s) (p := p) rfl (fun _ => rfl) hsources
  exact ⟨hcommands.trans htoward.symm, hsound⟩

theorem Spares.pedalsAgree {s t : State} (h : Spares s t) (hs : s.pedalsAgree) : t.pedalsAgree := by
  intro p
  obtain ⟨hcommands, hsound⟩ := (pedalsAgree_iff s).1 hs p
  refine ⟨?_, (h.pedals p).sound hsound⟩
  rw [(h.pedals p).towardDown, ← hcommands]
  exact commands_congr h.profile h.enabled (h.sources p)

/-- One pedal takes a record that agrees. -/
theorem pedalsAgree_setPedal {p : Pedal} {r : PedalRec} {s u : State} (hport : u.port = s.port)
    (hpedals : u.pedals = s.pedals) (hr : s.commands p r = r.towardDown ∧ r.Sound) (hs : s.pedalsAgree) :
    (setPedal p r u).pedalsAgree := by
  have hservice := SameService.of_port ((setPedal_port p r u).trans hport)
  have hcommands : ∀ q q', (setPedal p r u).commands q q' = s.commands q q' := fun q q' =>
    commands_congr hservice.profile hservice.enabled (.refl q')
  refine (pedalsAgree_iff _).2 fun q => ?_
  rw [hcommands]
  by_cases h : q = p
  · rw [h, pedal_setPedal_self]
    exact hr
  · rw [pedal_setPedal_ne h, pedal_congr hpedals]
    exact (pedalsAgree_iff s).1 hs q

theorem pedalsAgree_changePedal (p : Pedal) {f : PedalRec → PedalRec} (hf : ∀ r, PedalRec.Still r (f r)) {s : State}
    (hs : s.pedalsAgree) : (changePedal p f s).pedalsAgree := by
  rw [changePedal_eq]
  exact pedalsAgree_setPedal rfl rfl (pedalTakes_agrees ((hf _).sound ((pedalsAgree_iff s).1 hs p).2) s p) hs

theorem State.pedalsAgree.sound {s : State} (h : s.pedalsAgree) (p : Pedal) : (s.pedal p).Sound := ((pedalsAgree_iff s).1 h p).2

/-- Both pedals driven from sound records agree, whatever they were driven toward. -/
theorem pedalsAgree_changePedals {f : PedalRec → PedalRec} (hf : ∀ r, PedalRec.Still r (f r)) {s : State}
    (hs : ∀ p, (s.pedal p).Sound) : (changePedals f s).pedalsAgree := by
  rw [changePedals_eq]
  intro p
  cases p
  · exact pedalTakes_agrees ((hf _).sound (hs .sustain)) s .sustain
  · exact pedalTakes_agrees ((hf _).sound (hs .soft)) s .soft

end Sys2Proof.Machine

namespace Sys2Proof.Machine

/-! ### The pedals agree, operation by operation -/

theorem Spares.pausedKeys (s : State) : Spares s (pausedKeys s) := (Spares.sendAll _ s).trans (.mapKeys _ _)

theorem pedalsAgree_enterPaused {s : State} (hs : s.pedalsAgree) : (enterPaused s).pedalsAgree := by
  have hpedals : (pausedTargets s).pedalsAgree := by
    rw [pausedTargets_eq]
    exact pedalsAgree_changePedals (f := PedalRec.paused) (fun _ => ⟨rfl, rfl, rfl⟩)
      ((Spares.pausedKeys s).pedalsAgree hs).sound
  rw [enterPaused_eq]
  exact ((SameTargets.withPerf _ _).trans (.raise _ _)).spares.pedalsAgree hpedals

theorem pedalsAgree_cut {s : State} (hs : s.pedalsAgree) : (cut s).pedalsAgree := by
  have hpedals : (changePedals PedalRec.cut (cutKeys s)).pedalsAgree :=
    pedalsAgree_changePedals (f := PedalRec.cut) (fun _ => ⟨rfl, rfl, rfl⟩) ((Spares.cutKeys s).pedalsAgree hs).sound
  rw [cut_eq]
  exact ((SameTargets.completeSwitch _).trans (.withPerf _ _)).spares.pedalsAgree hpedals

theorem pedalsAgree_resumePlaying {s : State} (hs : s.pedalsAgree) : (resumePlaying s).pedalsAgree := by
  have hclock := ((SameTargets.withPerf { s.perf with state := .playing } s).trans (.reacquire .reseed _)).spares.pedalsAgree hs
  have hpedals := pedalsAgree_changePedals (f := PedalRec.resumed) (fun _ => ⟨rfl, rfl, rfl⟩) hclock.sound
  exact (((Spares.joinPending _).trans (.runArbiter _)).trans (SameTargets.withPerf _ _).spares).pedalsAgree hpedals

theorem pedalsAgree_takeProfile (r : RawProfile) {s : State} (hs : s.pedalsAgree) : (takeProfile r s).1.pedalsAgree := by
  unfold takeProfile
  split
  · next p hp =>
    have hpasses := ((profileOf?_eq_some_iff r p).1 hp).2
    dsimp only
    rw [writeProfile_changes hpasses]
    refine pedalsAgree_changePedals (fun r => .refl r) fun q => ?_
    rw [pedal_congr ((mapKeys_pedals _ _).trans (rfl : (profileWritten r p s).pedals = s.pedals))]
    exact hs.sound q
  · exact hs

/-- At its engage end a pedal stays down or is let up, as it was driven toward (R89). -/
theorem pedalsAgree_endEngage (p : Pedal) {s : State} (hphase : (s.pedal p).phase = .engaging) (hs : s.pedalsAgree) :
    (endEngage p s).pedalsAgree := by
  obtain ⟨hcommands, hsound⟩ := (pedalsAgree_iff s).1 hs p
  have htoward : (s.pedal p).towardDown = !(s.pedal p).relWait := by
    unfold PedalRec.towardDown
    rw [hphase]
  rw [htoward] at hcommands
  rw [endEngage_eq]
  cases hwait : (s.pedal p).relWait with
  | true =>
    rw [hwait] at hcommands
    exact pedalsAgree_setPedal rfl rfl ⟨hcommands, nofun, iff_of_false (fun e => e rfl) nofun⟩ hs
  | false =>
    rw [hwait] at hcommands
    refine pedalsAgree_setPedal rfl rfl ⟨hcommands, ?_, iff_of_false (fun e => e rfl) nofun⟩ hs
    dsimp only
    rw [hwait]
    nofun

/-! The boards. -/

theorem boardOn_port (b : Board) (s : State) : (boardOn b s).port =
    (updateBoard b (fun r => { r with service := .enabled, faultReason := none }) s).port := by
  simp only [boardOn]
  rfl

theorem boardOn_enabled (b c : Board) (s : State) : (boardOn b s).boardEnabled c = (decide (c = b) || s.boardEnabled c) := by
  have hboard : (boardOn b s).board c = if c = b then { s.board b with service := .enabled, faultReason := none } else s.board c :=
    (congrArg (fun q : ActionPort => q.boards[c]) (boardOn_port b s)).trans (board_updateBoard c b _ s)
  unfold State.boardEnabled
  rw [hboard]
  by_cases h : c = b
  · rw [if_pos h, decide_eq_true h]
    rfl
  · rw [if_neg h, decide_eq_false h, Bool.false_or]

/-- A pedal that is not on the board is commanded as before. -/
theorem commands_of_not_onBoard {b : Board} {s t : State} {p : Pedal} (hprofile : t.port.profile = s.port.profile)
    (henabled : ∀ c, c ≠ b → t.boardEnabled c = s.boardEnabled c) (hoff : s.pedalOnBoard p b = false) (r : PedalRec) :
    t.commands p r = s.commands p r := by
  have hwire := pedalWire_of_profile hprofile p
  unfold State.pedalOnBoard at hoff
  unfold State.commands
  rw [hwire]
  cases hw : s.pedalWire p with
  | none => rfl
  | some w =>
    rw [hw] at hoff
    have hne : w.1 ≠ b := fun e => by simp [e] at hoff
    simp only [Option.any_some, henabled _ hne]

theorem pedalsAgree_enableBoard (b : Board) {s : State} (hs : s.pedalsAgree) : (enableBoard b s).pedalsAgree := by
  have hcommands : ∀ p r, (enableBoard b s).commands p r = (boardOn b s).commands p r := fun p r => by
    rw [enableBoard_eq]
    generalize boardOn b s = u
    rfl
  have hpedal : ∀ p, (enableBoard b s).pedal p = (pedalBack b s p).1 := fun p => by
    rw [enableBoard_eq]
    generalize boardOn b s = u
    cases p <;> rfl
  refine (pedalsAgree_iff _).2 fun p => ?_
  rw [hcommands, hpedal]
  unfold pedalBack
  split
  · exact pedalTakes_agrees (hs.sound p) (boardOn b s) p
  · next hoff =>
    have hout : ∀ c, c ≠ b → (boardOn b s).boardEnabled c = s.boardEnabled c := fun c hc => by
      rw [boardOn_enabled, decide_eq_false hc, Bool.false_or]
    rw [commands_of_not_onBoard (boardOn_frame b s).1 hout (Bool.eq_false_iff.2 hoff)]
    exact (pedalsAgree_iff s).1 hs p

theorem boardOut_port (b : Board) (reason : DisableReason) (fault : Option FaultReason) (s begun : State) :
    (boardOut b reason fault s begun).port =
      (updateBoard b (fun r => { r with service := .disabled reason, faultReason := fault, inFlight := 0 }) s).port := by
  simp only [boardOut]
  rfl

theorem boardOut_board (b c : Board) (reason : DisableReason) (fault : Option FaultReason) (s begun : State) :
    (boardOut b reason fault s begun).board c =
      if c = b then { s.board b with service := .disabled reason, faultReason := fault, inFlight := 0 } else s.board c :=
  (congrArg (fun q : ActionPort => q.boards[c]) (boardOut_port b reason fault s begun)).trans (board_updateBoard c b _ s)

theorem boardOut_enabled (b c : Board) (reason : DisableReason) (fault : Option FaultReason) (s begun : State) :
    (boardOut b reason fault s begun).boardEnabled c = (!decide (c = b) && s.boardEnabled c) := by
  unfold State.boardEnabled
  rw [boardOut_board]
  by_cases h : c = b
  · rw [if_pos h, decide_eq_true h]
    rfl
  · rw [if_neg h, decide_eq_false h]
    rfl

theorem boardOut_pedal (b : Board) (reason : DisableReason) (fault : Option FaultReason) (s begun : State) (p : Pedal) :
    (boardOut b reason fault s begun).pedal p = if s.pedalOnBoard p b then (s.pedal p).disabled else s.pedal p := by
  have hpedals : (boardOut b reason fault s begun).pedals =
      { sustain := if s.pedalOnBoard .sustain b then s.pedals.sustain.disabled else s.pedals.sustain
        soft := if s.pedalOnBoard .soft b then s.pedals.soft.disabled else s.pedals.soft } := by simp only [boardOut]
  cases p
  · exact congrArg PedalUnit.sustain hpedals
  · exact congrArg PedalUnit.soft hpedals

/-- A pedal of a board out of service is not commanded down. -/
theorem commands_of_onBoard {b : Board} {s t : State} {p : Pedal} (hprofile : t.port.profile = s.port.profile)
    (hout : t.boardEnabled b = false) (hon : s.pedalOnBoard p b = true) (r : PedalRec) : t.commands p r = false := by
  have hwire := pedalWire_of_profile hprofile p
  unfold State.pedalOnBoard at hon
  unfold State.commands
  rw [hwire]
  cases hw : s.pedalWire p with
  | none => rfl
  | some w =>
    rw [hw, Option.any_some, beq_iff_eq] at hon
    rw [Option.any_some, hon, hout]
    rfl

theorem pedalsAgree_boardOut (b : Board) (reason : DisableReason) (fault : Option FaultReason) {s : State} (begun : State)
    (hs : s.pedalsAgree) : (boardOut b reason fault s begun).pedalsAgree := by
  have hprofile : (boardOut b reason fault s begun).port.profile = s.port.profile := by rw [boardOut_port]; rfl
  refine (pedalsAgree_iff _).2 fun p => ?_
  rw [boardOut_pedal]
  split
  · next hon =>
    have hout : (boardOut b reason fault s begun).boardEnabled b = false := by
      rw [boardOut_enabled, decide_eq_true rfl]
      rfl
    rw [commands_of_onBoard hprofile hout hon]
    exact ⟨rfl, nofun, iff_of_false (fun e => e rfl) nofun⟩
  · next hoff =>
    have henabled : ∀ c, c ≠ b → (boardOut b reason fault s begun).boardEnabled c = s.boardEnabled c := fun c hc => by
      rw [boardOut_enabled, decide_eq_false hc, Bool.not_false, Bool.true_and]
    rw [commands_of_not_onBoard hprofile henabled (Bool.eq_false_iff.2 hoff)]
    exact (pedalsAgree_iff s).1 hs p

theorem pedalsAgree_disableBoard (b : Board) (reason : DisableReason) (fault : Option FaultReason) {s : State}
    (hs : s.pedalsAgree) : (disableBoard b reason fault s).pedalsAgree := by
  have hout := pedalsAgree_boardOut b reason fault (endRemovedProbes b s) hs
  rw [disableBoard_eq]
  split
  · exact hout
  · exact (Spares.runArbiter _).pedalsAgree hout

theorem pedalsAgree_agreement : Agreement State.pedalsAgree where
  still h hs := h.spares.pedalsAgree hs
  powerOn _ := (Spares.of_port (s := State.reset) rfl rfl).pedalsAgree pedalsAgree_reset
  fullReset _ := (Spares.of_port (s := State.reset) rfl rfl).pedalsAgree pedalsAgree_reset
  strikeReaches k st s hs := (Spares.strikeReaches k st s).pedalsAgree hs
  releaseReaches k tag s hs := (Spares.releaseReaches k tag s).pedalsAgree hs
  changePedal p _ _ hf hs := pedalsAgree_changePedal p hf hs
  enterPaused hs := pedalsAgree_enterPaused hs
  stopAfterCut _ _ hs := (SameTargets.withPerf _ _).spares.pedalsAgree (pedalsAgree_cut hs)
  resumePlaying hs := pedalsAgree_resumePlaying hs
  takeProfile r _ _ hs := pedalsAgree_takeProfile r hs
  endEngage p _ hphase hs := pedalsAgree_endEngage p hphase hs
  enableBoard b _ hs := pedalsAgree_enableBoard b hs
  disableBoard b reason fault _ hs := pedalsAgree_disableBoard b reason fault hs
  endPulse k s _ hs := (Spares.endPulse k s).pedalsAgree hs
  letGo k s _ hs := (Spares.letGo k s).pedalsAgree hs
  keyRests k s _ hs := (Spares.keyRests k s).pedalsAgree hs

end Sys2Proof.Machine

namespace Sys2Proof.Machine

/-! ### The parts of `keysAgree` -/

/-- Each timer of a key runs exactly in its phase (R117); at the pulse end itself the timer has run out before the phase
changes (R123). -/
def KeyRec.TimersAgree (r : KeyRec) (ending : Bool) : Prop :=
  (r.pulseEnd ≠ none ↔ r.phase = .striking ∧ ending = false) ∧ (r.holdLimit ≠ none ↔ r.phase = .held) ∧
    (r.returnTimer ≠ none ↔ r.phase = .releasing)

/-- A key just let go runs its return timer alone (R127). -/
theorem timersAgree_releasing {r : KeyRec} (hphase : r.phase = .releasing) (hpulse : r.pulseEnd = none)
    (hhold : r.holdLimit = none) (hreturn : r.returnTimer ≠ none) (ending : Bool) : r.TimersAgree ending := by
  unfold KeyRec.TimersAgree
  rw [hpulse, hhold, hphase]
  exact ⟨iff_of_false (fun e => e rfl) (fun e => (nomatch e.1)), iff_of_false (fun e => e rfl) nofun,
    iff_of_true hreturn rfl⟩

/-- A key at rest runs no timer. -/
theorem timersAgree_resting {r : KeyRec} (hphase : r.phase = .resting) (hpulse : r.pulseEnd = none)
    (hhold : r.holdLimit = none) (hreturn : r.returnTimer = none) (ending : Bool) : r.TimersAgree ending := by
  unfold KeyRec.TimersAgree
  rw [hpulse, hhold, hreturn, hphase]
  exact ⟨iff_of_false (fun e => e rfl) (fun e => (nomatch e.1)), iff_of_false (fun e => e rfl) nofun,
    iff_of_false (fun e => e rfl) nofun⟩

/-- Whether a key's board is in service. -/
def State.keyServed (s : State) (k : Key) : Bool := (s.keyWire k).any fun w => s.boardEnabled w.1

/-- The Deferral List: in order of fire time, with one entry of each key (R109). -/
def listOrdered (l : List DeferralEntry) : Prop := l.Pairwise fun x y => x.strike.fire ≤ y.strike.fire ∧ x.key ≠ y.key

/-- The keys, the list and the slots, but for what PAUSED decides. `ending` is a key at its pulse end, which has given back
its slot and is still STRIKING as the arbiter runs (R123). -/
structure KeysCore (ending : Option Key) (s : State) : Prop where
  offline : ∀ k, (s.key k).phase = .offline ↔ s.keyServed k = false
  timers : ∀ k, (s.key k).TimersAgree (decide (ending = some k))
  ends : ∀ k, ending = some k → (s.key k).phase = .striking
  ordered : listOrdered s.sched.deferral
  listed : ∀ k, (s.key k).phase = .deferred ↔ ∃ e ∈ s.sched.deferral, e.key = k
  tagged : ∀ e ∈ s.sched.deferral, (s.key e.key).current = some e.strike.tag
  boards : ∀ b, (s.board b).inFlight = s.striking fun k => s.keyOnBoard k b && !decide (ending = some k)
  boardLimits : ∀ b, (s.board b).inFlight ≤ s.boardLimit b
  total : s.sched.total = s.striking fun k => !decide (ending = some k)
  totalLimit : s.sched.total ≤ s.totalLimit
  pending : ∀ k, (s.key k).pending ≠ none → (s.key k).phase ≠ .offline

/-- A strike is pending at a RESTING key only in PAUSED (R120, R133). -/
def State.pendingRestsPaused (s : State) : Prop :=
  ∀ k, (s.key k).pending ≠ none → (s.key k).phase = .resting → s.perf.state = .paused

/-- Outside PAUSED no entry could be given a slot (R107). -/
def State.listBlocked (s : State) : Prop := s.perf.state ≠ .paused → ∀ e ∈ s.sched.deferral, s.grantable e = false

theorem keysAgree_iff (s : State) : s.keysAgree ↔ KeysCore none s ∧ s.pendingRestsPaused ∧ s.listBlocked := by
  have hending : ∀ k : Key, decide ((none : Option Key) = some k) = false := fun _ => rfl
  constructor
  · rintro ⟨hoffline, htimers, hordered, hlisted, htagged, hboards, htotal, htotalLimit, hpending, hblocked⟩
    refine ⟨⟨hoffline, fun k => ?_, nofun, hordered, hlisted, htagged, fun b => ?_, fun b => (hboards b).2, ?_, htotalLimit,
      fun k hk => (hpending k hk).1⟩, fun k hk => (hpending k hk).2, hblocked⟩
    · simpa only [KeyRec.TimersAgree, hending, and_true] using htimers k
    · simpa only [hending, Bool.not_false, Bool.and_true] using (hboards b).1
    · simpa only [hending, Bool.not_false] using htotal
  · rintro ⟨h, hpending, hblocked⟩
    refine ⟨h.offline, fun k => ?_, h.ordered, h.listed, h.tagged, fun b => ⟨?_, h.boardLimits b⟩, ?_, h.totalLimit,
      fun k hk => ⟨h.pending k hk, hpending k hk⟩, hblocked⟩
    · simpa only [KeyRec.TimersAgree, hending, and_true] using h.timers k
    · simpa only [hending, Bool.not_false, Bool.and_true] using h.boards b
    · simpa only [hending, Bool.not_false] using h.total

/-! What the profile, the boards and the slots decide. -/

theorem keyWire_of_profile {s t : State} (h : t.port.profile = s.port.profile) (k : Key) : t.keyWire k = s.keyWire k := by
  unfold State.keyWire
  rw [h]

theorem keyOnBoard_of_profile {s t : State} (h : t.port.profile = s.port.profile) (k : Key) (b : Board) :
    t.keyOnBoard k b = s.keyOnBoard k b := by
  unfold State.keyOnBoard
  rw [keyWire_of_profile h]

theorem totalLimit_congr {s t : State} (h : t.port.profile = s.port.profile) : t.totalLimit = s.totalLimit := by
  unfold State.totalLimit
  rw [h]

theorem boardLimit_congr {s t : State} {b : Board} (h : (t.board b).params = (s.board b).params) :
    t.boardLimit b = s.boardLimit b := by
  unfold State.boardLimit
  rw [h]

section
variable {s t : State} (h : SameService s t)
include h

theorem SameService.keyWire (k : Key) : t.keyWire k = s.keyWire k := keyWire_of_profile h.profile k

theorem SameService.keyOnBoard (k : Key) (b : Board) : t.keyOnBoard k b = s.keyOnBoard k b :=
  keyOnBoard_of_profile h.profile k b

theorem SameService.keyServed (k : Key) : t.keyServed k = s.keyServed k := by
  unfold State.keyServed
  rw [h.keyWire]
  simp only [h.enabled]

theorem SameService.boardLimit (b : Board) : t.boardLimit b = s.boardLimit b := boardLimit_congr (h.params b)

theorem SameService.totalLimit : t.totalLimit = s.totalLimit := totalLimit_congr h.profile
end

/-- The slots, the list and their limits, whichever boards are in service. -/
structure SameLoad (s t : State) : Prop where
  profile : t.port.profile = s.port.profile
  params : ∀ b, (t.board b).params = (s.board b).params
  inFlight : ∀ b, (t.board b).inFlight = (s.board b).inFlight
  total : t.sched.total = s.sched.total
  deferral : t.sched.deferral = s.sched.deferral

theorem SameSlots.load {s t : State} (h : SameSlots s t) : SameLoad s t :=
  ⟨h.profile, h.params, h.inFlight, h.total, h.deferral⟩

section
variable {s t : State} (h : SameLoad s t)
include h

theorem SameLoad.keyWire (k : Key) : t.keyWire k = s.keyWire k := keyWire_of_profile h.profile k

theorem SameLoad.keyOnBoard (k : Key) (b : Board) : t.keyOnBoard k b = s.keyOnBoard k b :=
  keyOnBoard_of_profile h.profile k b

theorem SameLoad.boardLimit (b : Board) : t.boardLimit b = s.boardLimit b := boardLimit_congr (h.params b)

theorem SameLoad.totalLimit : t.totalLimit = s.totalLimit := totalLimit_congr h.profile

theorem SameLoad.grantable (e : DeferralEntry) : t.grantable e = s.grantable e := by
  unfold State.grantable State.keyBoardFree State.totalFree State.boardFree
  rw [h.keyWire, h.total, h.totalLimit]
  simp only [h.inFlight, h.boardLimit]

theorem SameLoad.listBlocked (hpaused : s.perf.state = .paused → t.perf.state = .paused) (hs : s.listBlocked) :
    t.listBlocked := by
  intro hstate e he
  rw [h.grantable]
  rw [h.deferral] at he
  exact hs (mt hpaused hstate) e he
end

/-! ### Keys that keep their slots and their places -/

/-- From r to r' a key neither takes nor gives back a slot or a place on the list. -/
structure KeyRec.KeepsPlace (r r' : KeyRec) : Prop where
  striking : r'.phase = .striking ↔ r.phase = .striking
  deferred : r'.phase = .deferred ↔ r.phase = .deferred
  timers : ∀ ending, r.TimersAgree ending → r'.TimersAgree ending
  current : r.phase = .deferred → r'.current = r.current

/-- And it stays in service or out of it, with nothing pending there. -/
structure KeyRec.Moves (r r' : KeyRec) : Prop extends r.KeepsPlace r' where
  offline : r'.phase = .offline ↔ r.phase = .offline
  pending : r.phase = .offline → r.pending = none → r'.pending = none

theorem KeyRec.Still.timers {r r' : KeyRec} (h : r.Still r') (ending : Bool) (hr : r.TimersAgree ending) :
    r'.TimersAgree ending := by
  unfold KeyRec.TimersAgree
  rw [h.pulseEnd, h.holdLimit, h.returnTimer, h.phase]
  exact hr

theorem KeyRec.Still.moves {r r' : KeyRec} (h : r.Still r') : r.Moves r' where
  striking := by rw [h.phase]
  deferred := by rw [h.phase]
  offline := by rw [h.phase]
  timers := h.timers
  current _ := h.current
  pending _ := h.pending

theorem striking_congr {s t : State} {c d : Key → Bool} (hcond : ∀ k, d k = c k)
    (hkeys : ∀ k, (t.key k).phase = .striking ↔ (s.key k).phase = .striking) : t.striking d = s.striking c := by
  unfold State.striking
  refine congrArg List.length (List.filter_congr fun k _ => ?_)
  rw [hcond, decide_eq_decide.2 (hkeys k)]

/-- Keys that keep their places and agree with the service carry the core over. -/
theorem KeysCore.carried {ending : Option Key} {s t : State} (h : KeysCore ending s) (hload : SameLoad s t)
    (hkeys : ∀ k, (s.key k).KeepsPlace (t.key k)) (hoffline : ∀ k, (t.key k).phase = .offline ↔ t.keyServed k = false)
    (hpending : ∀ k, (t.key k).pending ≠ none → (t.key k).phase ≠ .offline) : KeysCore ending t where
  offline := hoffline
  timers k := (hkeys k).timers _ (h.timers k)
  ends k hk := (hkeys k).striking.2 (h.ends k hk)
  ordered := by rw [hload.deferral]; exact h.ordered
  listed k := by rw [(hkeys k).deferred, hload.deferral, h.listed]
  tagged e he := by
    rw [hload.deferral] at he
    rw [(hkeys e.key).current ((h.listed e.key).2 ⟨e, he, rfl⟩), h.tagged e he]
  boards b := by
    rw [hload.inFlight, h.boards]
    exact (striking_congr (fun k => by rw [hload.keyOnBoard]) fun k => (hkeys k).striking).symm
  boardLimits b := by rw [hload.inFlight, hload.boardLimit]; exact h.boardLimits b
  total := by
    rw [hload.total, h.total]
    exact (striking_congr (fun _ => rfl) fun k => (hkeys k).striking).symm
  totalLimit := by rw [hload.total, hload.totalLimit]; exact h.totalLimit
  pending := hpending

/-- The core depends on the slots and on what moves of keys keep. -/
theorem KeysCore.moves {ending : Option Key} {s t : State} (h : KeysCore ending s) (hslots : SameSlots s t)
    (hkeys : ∀ k, (s.key k).Moves (t.key k)) : KeysCore ending t := by
  refine h.carried hslots.load (fun k => (hkeys k).toKeepsPlace) (fun k => ?_) fun k hk hafter => ?_
  · rw [(hkeys k).offline, hslots.keyServed, h.offline]
  · have hoffline := (hkeys k).offline.1 hafter
    exact h.pending k (fun hnone => hk ((hkeys k).pending hoffline hnone)) hoffline

theorem KeysCore.still {ending : Option Key} {s t : State} (h : KeysCore ending s) (hstill : Still s t) :
    KeysCore ending t := h.moves hstill.slots fun k => (hstill.keys k).moves

/-- Keys that move and do not come to rest with a strike pending stay in agreement. -/
theorem keysAgree_moves {s t : State} (h : s.keysAgree) (hslots : SameSlots s t) (hkeys : ∀ k, (s.key k).Moves (t.key k))
    (hrests : t.pendingRestsPaused) (hpaused : s.perf.state = .paused → t.perf.state = .paused) : t.keysAgree := by
  obtain ⟨hcore, -, hblocked⟩ := (keysAgree_iff s).1 h
  exact (keysAgree_iff t).2 ⟨hcore.moves hslots hkeys, hrests, hslots.load.listBlocked hpaused hblocked⟩

theorem pendingRestsPaused_still {s t : State} (hs : s.pendingRestsPaused) (hkeys : ∀ k, (s.key k).Still (t.key k))
    (hpaused : s.perf.state = .paused → t.perf.state = .paused) : t.pendingRestsPaused := by
  intro k hpending hphase
  rw [(hkeys k).phase] at hphase
  exact hpaused (hs k (fun hnone => hpending ((hkeys k).pending hnone)) hphase)

theorem keysAgree_of_keys {s t : State} (h : s.keysAgree) (hslots : SameSlots s t) (hkeys : ∀ k, (s.key k).Still (t.key k))
    (hpaused : s.perf.state = .paused → t.perf.state = .paused) : t.keysAgree :=
  keysAgree_moves h hslots (fun k => (hkeys k).moves)
    (pendingRestsPaused_still ((keysAgree_iff s).1 h).2.1 hkeys hpaused) hpaused

theorem keysAgree_still {s t : State} (h : Still s t) (hs : s.keysAgree) : t.keysAgree :=
  keysAgree_of_keys hs h.slots h.keys h.paused.2

/-! ### A key that takes a slot or a place -/

/-- One key comes to STRIKING, and every count it falls under goes up by one. -/
theorem striking_enters {s t : State} {k : Key} (hother : ∀ j, j ≠ k → t.key j = s.key j)
    (hbefore : (s.key k).phase ≠ .striking) (hafter : (t.key k).phase = .striking) (c : Key → Bool) :
    t.striking c = s.striking c + (c k).toNat := by
  have hcount := length_filter_update allKeys_nodup (mem_allKeys k)
    (p := fun j => c j && decide ((s.key j).phase = .striking)) (q := fun j => c j && decide ((t.key j).phase = .striking))
    fun j hj => by rw [hother j hj]
  rw [decide_eq_false hbefore, decide_eq_true hafter, Bool.and_false, Bool.and_true] at hcount
  exact hcount

/-- One key leaves STRIKING or the count. -/
theorem striking_leaves {s t : State} {k : Key} {c d : Key → Bool} (hcond : ∀ j, j ≠ k → d j = c j)
    (hother : ∀ j, j ≠ k → t.key j = s.key j) (hbefore : (s.key k).phase = .striking) (hafter : d k = false) :
    t.striking d + (c k).toNat = s.striking c := by
  have hcount := length_filter_update allKeys_nodup (mem_allKeys k)
    (p := fun j => c j && decide ((s.key j).phase = .striking)) (q := fun j => d j && decide ((t.key j).phase = .striking))
    fun j hj => by rw [hother j hj, hcond j hj]
  rw [decide_eq_true hbefore, hafter, Bool.false_and, Bool.and_true] at hcount
  exact hcount

/-- What pulsing a key with a channel comes to, block by block. -/
theorem pulseKey_slots {s : State} {k : Key} {b : Board} {c : Nat} (st : Strike) (hwire : s.keyWire k = some (b, c)) :
    SameService s (pulseKey k st s) ∧
      (∀ d, ((pulseKey k st s).board d).inFlight = (s.board d).inFlight + (decide (d = b)).toNat) ∧
      (pulseKey k st s).sched.total = s.sched.total + 1 ∧ (pulseKey k st s).sched.deferral = s.sched.deferral := by
  have hboard : ∀ d, (pulseKey k st s).board d =
      (updateBoard b (fun r => { r with inFlight := r.inFlight + 1 }) s).board d := fun d => by
    rw [pulseKey_of_wire st hwire]
    rfl
  refine ⟨⟨?_, fun d => ?_, fun d => ?_⟩, fun d => ?_, ?_, ?_⟩
  · rw [pulseKey_of_wire st hwire]
  · exact (Spares.pulseKey k st s).enabled d
  · rw [hboard, board_updateBoard]
    split
    · next h => rw [h]
    · rfl
  · rw [hboard, board_updateBoard]
    split
    · next h => rw [h, decide_eq_true rfl]; rfl
    · next h => rw [decide_eq_false h]; rfl
  · rw [pulseKey_of_wire st hwire]
  · rw [pulseKey_of_wire st hwire]

theorem key_pulseKey (j k : Key) (st : Strike) (s : State) : (pulseKey k st s).key j =
    if j = k then (s.key k).striking st (s.expiry st.vals.width) else s.key j := by
  have hkeys : (sendKey k (.pulse st.vals.width) (takeSlot k s)).keys = s.keys := by
    unfold takeSlot
    split <;> rfl
  unfold pulseKey
  rw [key_updateKey, key_congr hkeys, key_congr hkeys]

/-- A key with a wire to a board in service. -/
theorem keyServed_of_wire {s : State} {k : Key} {b : Board} {c : Nat} (hwire : s.keyWire k = some (b, c)) :
    s.keyServed k = s.boardEnabled b := by
  unfold State.keyServed
  rw [hwire]
  rfl

theorem keyOnBoard_of_wire {s : State} {k : Key} {b : Board} {c : Nat} (hwire : s.keyWire k = some (b, c)) (d : Board) :
    s.keyOnBoard k d = decide (d = b) := by
  unfold State.keyOnBoard
  rw [hwire, Option.any_some]
  by_cases h : d = b
  · simp [h]
  · simp [h, Ne.symm h]

/-- A RESTING key takes a free slot. -/
theorem KeysCore.pulseKey {ending : Option Key} {s : State} (h : KeysCore ending s) {k : Key}
    (hphase : (s.key k).phase = .resting) (hboard : s.keyBoardFree k = true) (htotal : s.totalFree = true) (st : Strike) :
    KeysCore ending (pulseKey k st s) := by
  obtain ⟨b, c, hwire, hfree⟩ := (keyBoardFree_iff s k).1 hboard
  obtain ⟨hservice, hinFlight, htotal', hdeferral⟩ := pulseKey_slots st hwire
  have hother : ∀ j, j ≠ k → (Machine.pulseKey k st s).key j = s.key j := fun j hj => by rw [key_pulseKey, if_neg hj]
  have hkey : (Machine.pulseKey k st s).key k = (s.key k).striking st (s.expiry st.vals.width) := by
    rw [key_pulseKey, if_pos rfl]
  have hending : decide (ending = some k) = false := decide_eq_false fun e => by
    rw [h.ends k e] at hphase
    cases hphase
  have hcount := striking_enters hother (by rw [hphase]; nofun) (by rw [hkey]; rfl)
  obtain ⟨-, hhold, hreturn⟩ := h.timers k
  rw [hphase] at hhold hreturn
  constructor
  case offline =>
    intro j
    rw [hservice.keyServed]
    by_cases hj : j = k
    · rw [hj, hkey, ← h.offline, hphase]
      exact iff_of_false nofun nofun
    · rw [hother j hj]
      exact h.offline j
  case timers =>
    intro j
    by_cases hj : j = k
    · rw [hj, hkey, hending]
      exact ⟨iff_of_true nofun ⟨rfl, rfl⟩, iff_of_false (fun e => (nomatch hhold.1 e)) nofun,
        iff_of_false (fun e => (nomatch hreturn.1 e)) nofun⟩
    · rw [hother j hj]
      exact h.timers j
  case ends =>
    intro j hj
    rw [hother j fun e => by rw [hj, e, decide_eq_true rfl] at hending; cases hending]
    exact h.ends j hj
  case ordered => rw [hdeferral]; exact h.ordered
  case listed =>
    intro j
    rw [hdeferral, ← h.listed j]
    by_cases hj : j = k
    · rw [hj, hkey, hphase]
      exact iff_of_false nofun nofun
    · rw [hother j hj]
  case tagged =>
    intro e he
    rw [hdeferral] at he
    rw [hother e.key fun hj => ?_]
    · exact h.tagged e he
    · have hdeferred := (h.listed e.key).2 ⟨e, he, rfl⟩
      rw [hj, hphase] at hdeferred
      cases hdeferred
  case boards =>
    intro d
    have hcond := hcount fun j => s.keyOnBoard j d && !decide (ending = some j)
    rw [hending, keyOnBoard_of_wire hwire, Bool.not_false, Bool.and_true] at hcond
    rw [hinFlight, h.boards d, ← hcond]
    exact striking_congr (fun j => by rw [hservice.keyOnBoard]) fun _ => .rfl
  case boardLimits =>
    intro d
    rw [hinFlight, hservice.boardLimit]
    by_cases hd : d = b
    · rw [hd, decide_eq_true rfl]
      exact hfree
    · rw [decide_eq_false hd]
      exact h.boardLimits d
  case total =>
    have hcond := hcount fun j => !decide (ending = some j)
    rw [hending] at hcond
    rw [htotal', h.total]
    exact hcond.symm
  case totalLimit =>
    rw [htotal', hservice.totalLimit]
    exact (totalFree_iff s).1 htotal
  case pending =>
    intro j
    by_cases hj : j = k
    · rw [hj, hkey]
      exact fun _ => nofun
    · rw [hother j hj]
      exact h.pending j

/-! The Deferral List. -/

theorem mem_insertEntry {e x : DeferralEntry} {l : List DeferralEntry} : x ∈ insertEntry e l ↔ x = e ∨ x ∈ l := by
  induction l with
  | nil => simp [insertEntry]
  | cons y ys ih =>
    unfold insertEntry
    split
    · rw [List.mem_cons, ih, List.mem_cons]
      tauto
    · exact List.mem_cons

/-- An entry of a key that has none takes its place in the order (R110). -/
theorem insertEntry_ordered {e : DeferralEntry} {l : List DeferralEntry} (hl : listOrdered l) (he : ∀ x ∈ l, x.key ≠ e.key) :
    listOrdered (insertEntry e l) := by
  induction l with
  | nil => exact List.pairwise_singleton _ _
  | cons x xs ih =>
    obtain ⟨hx, hxs⟩ := List.pairwise_cons.1 hl
    have hne := he x List.mem_cons_self
    unfold insertEntry
    split
    · next hle =>
      refine List.pairwise_cons.2 ⟨fun y hy => ?_, ih hxs fun y hy => he y (List.mem_cons_of_mem _ hy)⟩
      rcases mem_insertEntry.1 hy with rfl | hy
      · exact ⟨hle, hne⟩
      · exact hx y hy
    · next hgt =>
      have hlt : e.strike.fire ≤ x.strike.fire := by omega
      refine List.pairwise_cons.2 ⟨fun y hy => ?_, hl⟩
      rcases List.mem_cons.1 hy with rfl | hy
      · exact ⟨hlt, hne.symm⟩
      · exact ⟨hlt.trans (hx y hy).1, (he y (List.mem_cons_of_mem _ hy)).symm⟩

/-- Of an ordered list the entry of one key leaves, and no other. -/
theorem eraseP_key {l : List DeferralEntry} (hl : listOrdered l) (k : Key) :
    l.eraseP (·.key == k) = l.filter fun x => !(x.key == k) := by
  induction l with
  | nil => rfl
  | cons x xs ih =>
    obtain ⟨hx, hxs⟩ := List.pairwise_cons.1 hl
    by_cases hkey : (x.key == k) = true
    · rw [List.eraseP_cons_of_pos (p := fun y : DeferralEntry => y.key == k) hkey,
        List.filter_cons_of_neg (p := fun y : DeferralEntry => !(y.key == k)) (by rw [hkey]; nofun)]
      refine (List.filter_eq_self.2 fun y hy => ?_).symm
      rw [← eq_of_beq hkey, beq_eq_false_iff_ne.2 (hx y hy).2.symm]
      rfl
    · rw [List.eraseP_cons_of_neg (p := fun y : DeferralEntry => y.key == k) hkey,
        List.filter_cons_of_pos (p := fun y : DeferralEntry => !(y.key == k)) (by rw [Bool.eq_false_iff.2 hkey]; rfl),
        ih hxs]

theorem key_joinDeferral_ne {j k : Key} (hj : j ≠ k) (st : Strike) (s : State) : (joinDeferral k st s).key j = s.key j :=
  key_updateKey_ne hj _ _

theorem key_joinDeferral_self (k : Key) (st : Strike) (s : State) :
    (joinDeferral k st s).key k = { s.key k with phase := .deferred, current := some st.tag } := key_updateKey_self k _ _

/-- A RESTING key joins the Deferral List (R110). -/
theorem KeysCore.joinDeferral {ending : Option Key} {s : State} (h : KeysCore ending s) {k : Key}
    (hphase : (s.key k).phase = .resting) (st : Strike) : KeysCore ending (joinDeferral k st s) := by
  have hservice : SameService s (Machine.joinDeferral k st s) := .of_port rfl
  have hdeferral : (Machine.joinDeferral k st s).sched.deferral = insertEntry ⟨k, st⟩ s.sched.deferral := rfl
  have hother : ∀ j, j ≠ k → (Machine.joinDeferral k st s).key j = s.key j := fun j hj => key_joinDeferral_ne hj st s
  have hkey : (Machine.joinDeferral k st s).key k = { s.key k with phase := .deferred, current := some st.tag } :=
    key_joinDeferral_self k st s
  have hstriking : ∀ j, ((Machine.joinDeferral k st s).key j).phase = .striking ↔ (s.key j).phase = .striking := fun j => by
    by_cases hj : j = k
    · rw [hj, hkey, hphase]
      exact iff_of_false nofun nofun
    · rw [hother j hj]
  have hnone : ∀ x ∈ s.sched.deferral, x.key ≠ k := fun x hx hj => by
    have hdeferred := (h.listed k).2 ⟨x, hx, hj⟩
    rw [hphase] at hdeferred
    cases hdeferred
  obtain ⟨hpulse, hhold, hreturn⟩ := h.timers k
  rw [hphase] at hpulse hhold hreturn
  constructor
  case offline =>
    intro j
    rw [hservice.keyServed]
    by_cases hj : j = k
    · rw [hj, hkey, ← h.offline, hphase]
      exact iff_of_false nofun nofun
    · rw [hother j hj]
      exact h.offline j
  case timers =>
    intro j
    by_cases hj : j = k
    · rw [hj, hkey]
      exact ⟨iff_of_false (fun e => (nomatch (hpulse.1 e).1)) (fun e => (nomatch e.1)),
        iff_of_false (fun e => (nomatch hhold.1 e)) nofun, iff_of_false (fun e => (nomatch hreturn.1 e)) nofun⟩
    · rw [hother j hj]
      exact h.timers j
  case ends => exact fun j hj => (hstriking j).2 (h.ends j hj)
  case ordered => rw [hdeferral]; exact insertEntry_ordered h.ordered hnone
  case listed =>
    intro j
    rw [hdeferral]
    by_cases hj : j = k
    · rw [hj, hkey]
      exact iff_of_true rfl ⟨⟨k, st⟩, mem_insertEntry.2 (.inl rfl), rfl⟩
    · rw [hother j hj, h.listed j]
      refine ⟨fun ⟨x, hx, hxj⟩ => ⟨x, mem_insertEntry.2 (.inr hx), hxj⟩, fun ⟨x, hx, hxj⟩ => ?_⟩
      rcases mem_insertEntry.1 hx with rfl | hx
      · exact absurd hxj.symm hj
      · exact ⟨x, hx, hxj⟩
  case tagged =>
    intro e he
    rw [hdeferral] at he
    rcases mem_insertEntry.1 he with rfl | he
    · rw [hkey]
    · rw [hother e.key (hnone e he)]
      exact h.tagged e he
  case boards =>
    intro b
    rw [striking_congr (fun j => by rw [hservice.keyOnBoard]) hstriking]
    exact h.boards b
  case boardLimits => exact h.boardLimits
  case total => rw [striking_congr (fun _ => rfl) hstriking]; exact h.total
  case totalLimit => exact h.totalLimit
  case pending =>
    intro j
    by_cases hj : j = k
    · rw [hj, hkey]
      exact fun _ => nofun
    · rw [hother j hj]
      exact h.pending j

end Sys2Proof.Machine

namespace Sys2Proof.Machine

/-! ### A key leaves the Deferral List -/

/-- The entry of a DEFERRED key goes, and the key rests. -/
theorem KeysCore.unlists {ending : Option Key} {s t : State} (h : KeysCore ending s) {k : Key} (hservice : SameService s t)
    (hinFlight : ∀ b, (t.board b).inFlight = (s.board b).inFlight) (htotal : t.sched.total = s.sched.total)
    (hdeferral : t.sched.deferral = s.sched.deferral.eraseP (·.key == k)) (hbefore : (s.key k).phase = .deferred)
    (hother : ∀ j, j ≠ k → (s.key j).Still (t.key j)) (hafter : (t.key k).phase = .resting)
    (htimers : (t.key k).pulseEnd = none ∧ (t.key k).holdLimit = none ∧ (t.key k).returnTimer = none) :
    KeysCore ending t := by
  have hmem : ∀ x, x ∈ t.sched.deferral ↔ x ∈ s.sched.deferral ∧ x.key ≠ k := fun x => by
    rw [hdeferral, eraseP_key h.ordered, List.mem_filter, Bool.not_eq_true', beq_eq_false_iff_ne]
  have hstriking : ∀ j, (t.key j).phase = .striking ↔ (s.key j).phase = .striking := fun j => by
    by_cases hj : j = k
    · rw [hj, hafter, hbefore]
      exact iff_of_false nofun nofun
    · rw [(hother j hj).phase]
  constructor
  case offline =>
    intro j
    rw [hservice.keyServed]
    by_cases hj : j = k
    · rw [hj, hafter, ← h.offline, hbefore]
      exact iff_of_false nofun nofun
    · rw [(hother j hj).phase]
      exact h.offline j
  case timers =>
    intro j
    by_cases hj : j = k
    · obtain ⟨hpulse, hhold, hreturn⟩ := htimers
      rw [hj]
      exact timersAgree_resting hafter hpulse hhold hreturn _
    · exact (hother j hj).timers _ (h.timers j)
  case ends => exact fun j hj => (hstriking j).2 (h.ends j hj)
  case ordered =>
    rw [hdeferral]
    exact List.Pairwise.sublist List.eraseP_sublist h.ordered
  case listed =>
    intro j
    by_cases hj : j = k
    · rw [hj, hafter]
      exact iff_of_false nofun fun ⟨e, he, hkey⟩ => ((hmem e).1 he).2 hkey
    · rw [(hother j hj).phase, h.listed j]
      refine exists_congr fun e => ?_
      rw [hmem]
      exact ⟨fun ⟨he, hkey⟩ => ⟨⟨he, hkey ▸ hj⟩, hkey⟩, fun ⟨he, hkey⟩ => ⟨he.1, hkey⟩⟩
  case tagged =>
    intro e he
    obtain ⟨he, hne⟩ := (hmem e).1 he
    rw [(hother e.key hne).current]
    exact h.tagged e he
  case boards =>
    intro b
    rw [hinFlight, striking_congr (fun j => by rw [hservice.keyOnBoard]) hstriking]
    exact h.boards b
  case boardLimits => intro b; rw [hinFlight, hservice.boardLimit]; exact h.boardLimits b
  case total => rw [htotal, striking_congr (fun _ => rfl) hstriking]; exact h.total
  case totalLimit => rw [htotal, hservice.totalLimit]; exact h.totalLimit
  case pending =>
    intro j
    by_cases hj : j = k
    · rw [hj, hafter]
      exact fun _ => nofun
    · intro hpending
      rw [(hother j hj).phase]
      exact h.pending j fun hnone => hpending ((hother j hj).pending hnone)

/-- A key RESTING with its timers out, otherwise as it was. -/
def KeyRec.rested (r : KeyRec) : KeyRec :=
  { r with phase := .resting, relWait := false, pulseEnd := none, holdLimit := none, returnTimer := none }

/-- After the phase and the timers, a rest notice is a matter of the Calibration Unit (R130). -/
theorem restNotice_still (k : Key) (s : State) : Still (updateKey k KeyRec.rested s) (restNotice k s) :=
  (Still.restRecord k _).trans (.upd k KeyRec.noticed _)

theorem key_restNotice (k : Key) (s : State) : ((s.key k).rested).Still ((restNotice k s).key k) ∧
    ∀ j, j ≠ k → (s.key j).Still ((restNotice k s).key j) := by
  have hstill := (restNotice_still k s).keys
  refine ⟨?_, fun j hj => ?_⟩
  · have hkey := hstill k
    rwa [key_updateKey_self] at hkey
  · have hkey := hstill j
    rwa [key_updateKey_ne hj] at hkey

theorem restNotice_slots (k : Key) (s : State) : SameSlots s (restNotice k s) :=
  SameSlots.trans (b := updateKey k KeyRec.rested s) (.of_eq rfl rfl rfl) (restNotice_still k s).slots

/-- The drop of an entry up to the move of a pending strike (R113). -/
def entryRested (e : DeferralEntry) (s : State) : State := restNotice e.key (countLate e.strike (removeEntry e.key s))

theorem entryRested_keys (e : DeferralEntry) (s : State) : ((s.key e.key).rested).Still ((entryRested e s).key e.key) ∧
    ∀ j, j ≠ e.key → (s.key j).Still ((entryRested e s).key j) := by
  have hlate := (Still.countLate e.strike (removeEntry e.key s)).keys
  obtain ⟨hself, hother⟩ := key_restNotice e.key (countLate e.strike (removeEntry e.key s))
  have hkey := hlate e.key
  have hrested : ((s.key e.key).rested).Still (((countLate e.strike (removeEntry e.key s)).key e.key).rested) :=
    ⟨rfl, rfl, rfl, rfl, hkey.current, hkey.pending⟩
  refine ⟨hrested.trans hself, fun j hj => (hlate j).trans (hother j hj)⟩

theorem KeysCore.entryRested {ending : Option Key} {s : State} (h : KeysCore ending s) {e : DeferralEntry}
    (he : e ∈ s.sched.deferral) : KeysCore ending (entryRested e s) := by
  obtain ⟨hself, hother⟩ := entryRested_keys e s
  have hslots : SameSlots (removeEntry e.key s) (Machine.entryRested e s) :=
    (Still.countLate e.strike _).slots.trans (restNotice_slots e.key _)
  exact h.unlists (k := e.key) ⟨hslots.profile, hslots.enabled, hslots.params⟩ hslots.inFlight hslots.total hslots.deferral
    ((h.listed e.key).2 ⟨e, he, rfl⟩) hother hself.phase ⟨hself.pulseEnd, hself.holdLimit, hself.returnTimer⟩

/-! ### The arbiter (R112) -/

/-- No RESTING key has a strike pending. -/
def State.noneRestsPending (s : State) : Prop := ∀ k, (s.key k).pending ≠ none → (s.key k).phase ≠ .resting

theorem dropEntry_match (e : DeferralEntry) (s : State) : dropEntry e s =
    match ((entryRested e s).key e.key).pending with
    | some st => joinDeferral e.key st (updateKey e.key (fun r => { r with pending := none }) (entryRested e s))
    | none => entryRested e s := rfl

/-- A pending strike leaves a key as its strike joins the Deferral List. -/
theorem noneRestsPending_joins {s : State} {k : Key} (hother : ∀ j, j ≠ k → (s.key j).pending ≠ none → (s.key j).phase ≠ .resting)
    (st : Strike) : (joinDeferral k st (updateKey k (fun r => { r with pending := none }) s)).noneRestsPending := by
  intro j
  by_cases hj : j = k
  · rw [hj]
    unfold joinDeferral
    rw [key_updateKey_self]
    exact fun _ => nofun
  · have hkey : (joinDeferral k st (updateKey k (fun r => { r with pending := none }) s)).key j = s.key j :=
      (key_joinDeferral_ne hj _ _).trans (key_updateKey_ne hj _ _)
    rw [hkey]
    exact hother j hj

theorem KeysCore.clearPending {ending : Option Key} {s : State} (h : KeysCore ending s) (k : Key) :
    KeysCore ending (updateKey k (fun r => { r with pending := none }) s) :=
  h.still (.upd k _ s ⟨rfl, rfl, rfl, rfl, rfl, fun _ => rfl⟩)

theorem KeysCore.dropEntry {ending : Option Key} {s : State} (h : KeysCore ending s) (hrests : s.noneRestsPending)
    {e : DeferralEntry} (he : e ∈ s.sched.deferral) :
    KeysCore ending (dropEntry e s) ∧ (dropEntry e s).noneRestsPending := by
  have hcore := h.entryRested he
  obtain ⟨hself, hstill⟩ := entryRested_keys e s
  have hother : ∀ j, j ≠ e.key → ((Machine.entryRested e s).key j).pending ≠ none →
      ((Machine.entryRested e s).key j).phase ≠ .resting := fun j hj hpending => by
    rw [(hstill j hj).phase]
    exact hrests j fun hnone => hpending ((hstill j hj).pending hnone)
  rw [dropEntry_match]
  split
  · next st hst =>
    refine ⟨(hcore.clearPending e.key).joinDeferral ?_ st, noneRestsPending_joins hother st⟩
    rw [key_updateKey_self]
    exact hself.phase
  · next hnone =>
    refine ⟨hcore, fun j hpending => ?_⟩
    by_cases hj : j = e.key
    · exact absurd (hj ▸ hnone) hpending
    · exact hother j hj hpending

/-- Pulsing a key overrides the phase it had. -/
theorem pulseKey_rested {k : Key} {u : State} {b : Board} {c : Nat} (st : Strike) (h : u.keyWire k = some (b, c)) :
    pulseKey k st (updateKey k (fun r => { r with phase := .resting }) u) = pulseKey k st u := by
  have hset : (updateKey k (fun r => { r with phase := .resting }) u).keys = u.keys.set k { u.key k with phase := .resting } := rfl
  have hwire : (updateKey k (fun r => { r with phase := .resting }) u).keyWire k = some (b, c) := h
  rw [pulseKey_of_wire st hwire, pulseKey_of_wire st h, hset, Vector.set_set, key_updateKey_self]
  rfl

/-- The first entry for which slots are free is struck. -/
theorem KeysCore.strikeEntry {ending : Option Key} {s : State} (h : KeysCore ending s) (hrests : s.noneRestsPending)
    {e : DeferralEntry} (he : e ∈ s.sched.deferral) (hboard : s.keyBoardFree e.key = true) (htotal : s.totalFree = true) :
    KeysCore ending (Machine.pulseKey e.key e.strike (removeEntry e.key s)) ∧
      (Machine.pulseKey e.key e.strike (removeEntry e.key s)).noneRestsPending := by
  have hdeferred := (h.listed e.key).2 ⟨e, he, rfl⟩
  obtain ⟨hpulse, hhold, hreturn⟩ := h.timers e.key
  rw [hdeferred] at hpulse hhold hreturn
  have hunlisted : KeysCore ending (updateKey e.key (fun r => { r with phase := .resting }) (removeEntry e.key s)) := by
    refine h.unlists (k := e.key) (.of_port rfl) (fun _ => rfl) rfl rfl hdeferred (fun j hj => ?_) ?_ ?_
    · rw [key_updateKey_ne hj]
      exact .refl _
    · rw [key_updateKey_self]
    · rw [key_updateKey_self]
      exact ⟨not_not.1 fun e => (nomatch (hpulse.1 e).1), not_not.1 fun e => (nomatch hhold.1 e),
        not_not.1 fun e => (nomatch hreturn.1 e)⟩
  refine ⟨?_, fun j => ?_⟩
  · obtain ⟨b, c, hwire, -⟩ := (keyBoardFree_iff s e.key).1 hboard
    have hwire' : (removeEntry e.key s).keyWire e.key = some (b, c) := hwire
    rw [← pulseKey_rested e.strike hwire']
    exact hunlisted.pulseKey (by rw [key_updateKey_self]) hboard htotal e.strike
  · rw [key_pulseKey]
    split
    · exact fun _ => nofun
    · exact hrests j

theorem KeysCore.arbitrate {ending : Option Key} (n : Nat) {s : State} (h : KeysCore ending s) (hrests : s.noneRestsPending) :
    KeysCore ending (arbitrate n s) ∧ (arbitrate n s).noneRestsPending := by
  induction n generalizing s with
  | zero => exact ⟨h, hrests⟩
  | succ n ih =>
    unfold Machine.arbitrate
    split
    · next htotal =>
      split
      · exact ⟨h, hrests⟩
      · next e hfind =>
        have he := List.mem_of_find?_eq_some hfind
        have hboard := List.find?_some hfind
        split
        · obtain ⟨hdropped, hrests'⟩ := h.dropEntry hrests he
          exact ih hdropped hrests'
        · obtain ⟨hstruck, hrests'⟩ := h.strikeEntry hrests he hboard htotal
          exact ih hstruck hrests'
    · exact ⟨h, hrests⟩

/-- The arbiter leaves no entry that could be given a slot (R107, R112). -/
theorem listBlocked_runArbiter (s : State) : (runArbiter s).listBlocked := by
  intro _ e he
  unfold State.grantable
  rcases (arbiterPass_none_iff _).1 (arbiterPass_runArbiter s) with htotal | hboards
  · have hfull : (runArbiter s).totalFree = false := Bool.eq_false_iff.2 fun hfree =>
      absurd ((totalFree_iff _).1 hfree) (not_lt.2 htotal)
    rw [hfull, Bool.and_false]
  · rw [hboards e he, Bool.false_and]

theorem State.pendingRestsPaused.noneRests {s : State} (h : s.pendingRestsPaused) (hstate : s.perf.state ≠ .paused) :
    s.noneRestsPending := fun k hpending hphase => hstate (h k hpending hphase)

theorem State.noneRestsPending.restsPaused {s : State} (h : s.noneRestsPending) : s.pendingRestsPaused :=
  fun k hpending hphase => absurd hphase (h k hpending)

/-- Slots having been freed, the arbiter restores the agreement; in PAUSED it waits (R108). -/
theorem KeysCore.arbiterUnlessPaused {ending : Option Key} {s : State} (h : KeysCore ending s)
    (hrests : s.pendingRestsPaused) : KeysCore ending (arbiterUnlessPaused s) ∧
      (arbiterUnlessPaused s).pendingRestsPaused ∧ (arbiterUnlessPaused s).listBlocked := by
  unfold Machine.arbiterUnlessPaused
  split
  · next hpaused => exact ⟨h, hrests, fun hstate => absurd hpaused hstate⟩
  · next hstate =>
    obtain ⟨hcore, hnone⟩ := h.arbitrate (s.sched.deferral.length + 88) (hrests.noneRests hstate)
    exact ⟨hcore, hnone.restsPaused, listBlocked_runArbiter s⟩

end Sys2Proof.Machine

namespace Sys2Proof.Machine

/-! ### Strikes and releases (R107, R119 to R124) -/

theorem grantable_iff (s : State) (e : DeferralEntry) : s.grantable e = true ↔
    (∃ b c, s.keyWire e.key = some (b, c) ∧ (s.board b).inFlight < s.boardLimit b) ∧ s.sched.total < s.totalLimit := by
  unfold State.grantable
  rw [Bool.and_eq_true, keyBoardFree_iff, totalFree_iff]

/-- A slot less frees none. -/
theorem listBlocked_pulseKey {s : State} {k : Key} (hboard : s.keyBoardFree k = true) (st : Strike) (hs : s.listBlocked) :
    (pulseKey k st s).listBlocked := by
  obtain ⟨b, c, hwire, -⟩ := (keyBoardFree_iff s k).1 hboard
  obtain ⟨hservice, hinFlight, htotal, hdeferral⟩ := pulseKey_slots st hwire
  have hperf : (pulseKey k st s).perf = s.perf := (Plays.pulseKey k st s).handsOn.perf
  intro hstate e he
  rw [hdeferral] at he
  rw [hperf] at hstate
  refine Bool.eq_false_iff.2 fun hgo => absurd ?_ (Bool.eq_false_iff.1 (hs hstate e he))
  obtain ⟨⟨d, channel, hd, hfree⟩, hroom⟩ := (grantable_iff _ e).1 hgo
  rw [hservice.keyWire] at hd
  rw [hinFlight, hservice.boardLimit] at hfree
  rw [htotal, hservice.totalLimit] at hroom
  exact (grantable_iff s e).2 ⟨⟨d, channel, hd, by omega⟩, by omega⟩

theorem keysAgree_pulseKey {s : State} (hs : s.keysAgree) {k : Key} (hphase : (s.key k).phase = .resting)
    (hboard : s.keyBoardFree k = true) (htotal : s.totalFree = true) (st : Strike) : (pulseKey k st s).keysAgree := by
  obtain ⟨hcore, hrests, hblocked⟩ := (keysAgree_iff s).1 hs
  have hperf : (pulseKey k st s).perf = s.perf := (Plays.pulseKey k st s).handsOn.perf
  refine (keysAgree_iff _).2 ⟨hcore.pulseKey hphase hboard htotal st, fun j => ?_, listBlocked_pulseKey hboard st hblocked⟩
  rw [key_pulseKey, hperf]
  split
  · exact fun _ => nofun
  · exact hrests j

/-- A strike that finds no slot is deferred, and its entry could not be given one (R107). -/
theorem keysAgree_joinDeferral {s : State} (hs : s.keysAgree) {k : Key} (hphase : (s.key k).phase = .resting)
    (st : Strike) (hfull : ¬(s.keyBoardFree k && s.totalFree) = true) : (joinDeferral k st s).keysAgree := by
  obtain ⟨hcore, hrests, hblocked⟩ := (keysAgree_iff s).1 hs
  refine (keysAgree_iff _).2 ⟨hcore.joinDeferral hphase st, fun j => ?_, fun hstate e he => ?_⟩
  · by_cases hj : j = k
    · rw [hj, key_joinDeferral_self]
      exact fun _ => nofun
    · rw [key_joinDeferral_ne hj]
      exact hrests j
  · rcases mem_insertEntry.1 (show e ∈ insertEntry ⟨k, st⟩ s.sched.deferral from he) with rfl | he
    · exact Bool.eq_false_iff.2 hfull
    · exact hblocked hstate e he

theorem keysAgree_offer {s : State} (hs : s.keysAgree) {k : Key} (hphase : (s.key k).phase = .resting) (checked : Bool)
    (st : Strike) : (offer checked k st s).keysAgree := by
  unfold offer
  split
  · exact keysAgree_still (.countLate st s) hs
  · split
    · next hfree =>
      obtain ⟨hboard, htotal⟩ := Bool.and_eq_true_iff.1 hfree
      exact keysAgree_pulseKey hs hphase hboard htotal st
    · next hfull => exact keysAgree_joinDeferral hs hphase st hfull

/-- A strike is parked at a key that is neither RESTING nor OFFLINE. -/
theorem keysAgree_park {s : State} (hs : s.keysAgree) {k : Key} (hresting : (s.key k).phase ≠ .resting)
    (hoffline : (s.key k).phase ≠ .offline) (st : Strike) : (park k st s).keysAgree := by
  have hcounted : Still s (if (s.key k).pending.isSome then count .supersededStrikes s else s) :=
    .ite (.count _ s) (.refl s)
  unfold park
  generalize (if (s.key k).pending.isSome then count .supersededStrikes s else s) = u at hcounted
  have hu := keysAgree_still hcounted hs
  rw [← (hcounted.keys k).phase] at hresting hoffline
  refine keysAgree_moves hu (.of_eq rfl rfl rfl) (fun j => ?_) (fun j => ?_) id
  · rw [key_updateKey]
    split
    · next hj =>
      subst hj
      exact ⟨⟨.rfl, .rfl, fun _ h => h, fun _ => rfl⟩, .rfl, fun h => absurd h hoffline⟩
    · exact (KeyRec.Still.refl _).moves
  · rw [key_updateKey]
    split
    · exact fun _ h => absurd h hresting
    · exact ((keysAgree_iff u).1 hu).2.1 j

theorem keysAgree_strikeReaches (k : Key) (st : Strike) {s : State} (hs : s.keysAgree) : (strikeReaches k st s).keysAgree := by
  unfold strikeReaches
  split
  · next hphase => exact keysAgree_offer hs hphase false st
  · next hphase => exact keysAgree_park hs (by rw [hphase]; nofun) (by rw [hphase]; nofun) st
  · next hphase => exact keysAgree_park hs (by rw [hphase]; nofun) (by rw [hphase]; nofun) st
  · next hphase => exact keysAgree_park hs (by rw [hphase]; nofun) (by rw [hphase]; nofun) st
  · next hphase => exact keysAgree_park hs (by rw [hphase]; nofun) (by rw [hphase]; nofun) st
  · exact keysAgree_still ((Still.count _ s).trans (.endProbe _ _ _)) hs

/-- A HELD key is let go (R126). -/
theorem releasing_moves {r : KeyRec} (h : r.phase = .held) (s : State) (k : Key) : r.Moves (r.releasing s k) where
  striking := by rw [h]; exact iff_of_false nofun nofun
  deferred := by rw [h]; exact iff_of_false nofun nofun
  offline := by rw [h]; exact iff_of_false nofun nofun
  timers ending _ := timersAgree_releasing rfl rfl rfl (Option.some_ne_none _) ending
  current _ := rfl
  pending _ hnone := hnone

theorem key_letGo (j k : Key) (s : State) : (letGo k s).key j =
    if j = k then (s.key k).releasing s k else s.key j := key_updateKey j k _ _

theorem keysAgree_letGo (k : Key) {s : State} (hphase : (s.key k).phase = .held) (hs : s.keysAgree) :
    (letGo k s).keysAgree := by
  refine keysAgree_moves hs (.of_eq rfl rfl rfl) (fun j => ?_) (fun j => ?_) id
  · rw [key_letGo]
    split
    · next hj =>
      subst hj
      exact releasing_moves hphase s j
    · exact (KeyRec.Still.refl _).moves
  · rw [key_letGo]
    split
    · exact fun _ => nofun
    · exact ((keysAgree_iff s).1 hs).2.1 j

/-- The list with its keys, fire times and tags, entry by entry, is what the agreement reads of it. -/
theorem listOrdered_map {l : List DeferralEntry} (hl : listOrdered l) {f : DeferralEntry → DeferralEntry}
    (hkey : ∀ e, (f e).key = e.key) (hfire : ∀ e, (f e).strike.fire = e.strike.fire) : listOrdered (l.map f) := by
  refine List.pairwise_map.2 (hl.imp fun h => ?_)
  rw [hfire, hfire, hkey, hkey]
  exact h

/-- The mark of R124 rule 3 on an entry. -/
def DeferralEntry.marked (k : Key) (e : DeferralEntry) : DeferralEntry :=
  if e.key = k then { e with strike := { e.strike with relWait := true } } else e

theorem marked_spec (k : Key) (e : DeferralEntry) : (e.marked k).key = e.key ∧ (e.marked k).strike.fire = e.strike.fire ∧
    (e.marked k).strike.tag = e.strike.tag := by
  unfold DeferralEntry.marked
  split <;> exact ⟨rfl, rfl, rfl⟩

theorem keysAgree_markEntry (k : Key) {s : State} (hs : s.keysAgree) : (markEntry k s).keysAgree := by
  obtain ⟨hcore, hrests, hblocked⟩ := (keysAgree_iff s).1 hs
  have hdeferral : (markEntry k s).sched.deferral = s.sched.deferral.map (DeferralEntry.marked k) := rfl
  have hmem : ∀ e ∈ (markEntry k s).sched.deferral, ∃ x ∈ s.sched.deferral, x.marked k = e := fun e he =>
    List.mem_map.1 (hdeferral ▸ he)
  refine (keysAgree_iff _).2 ⟨{ hcore with ordered := ?_, listed := fun j => ?_, tagged := fun e he => ?_ }, hrests,
    fun hstate e he => ?_⟩
  · rw [hdeferral]
    exact listOrdered_map hcore.ordered (fun e => (marked_spec k e).1) fun e => (marked_spec k e).2.1
  · refine (hcore.listed j).trans ⟨fun ⟨e, he, hkey⟩ => ⟨e.marked k, ?_, (marked_spec k e).1.trans hkey⟩, fun ⟨e, he, hkey⟩ => ?_⟩
    · rw [hdeferral]
      exact List.mem_map_of_mem he
    · obtain ⟨x, hx, rfl⟩ := hmem e he
      exact ⟨x, hx, (marked_spec k x).1.symm.trans hkey⟩
  · obtain ⟨x, hx, rfl⟩ := hmem e he
    rw [(marked_spec k x).1, (marked_spec k x).2.2]
    exact hcore.tagged x hx
  · obtain ⟨x, hx, rfl⟩ := hmem e he
    have hsame : (markEntry k s).grantable (x.marked k) = s.grantable x := by
      unfold State.grantable
      rw [(marked_spec k x).1]
      rfl
    rw [hsame]
    exact hblocked hstate x hx

theorem keysAgree_releaseReaches (k : Key) (tag : Tag) {s : State} (hs : s.keysAgree) :
    (releaseReaches k tag s).keysAgree := by
  unfold releaseReaches
  dsimp only
  split
  · exact keysAgree_still (.upd k _ s) hs
  · split
    · next hheld => exact keysAgree_letGo k hheld.2 hs
    · split
      · exact keysAgree_markEntry k hs
      · split
        · refine keysAgree_still (.upd k _ s ⟨rfl, rfl, rfl, rfl, rfl, fun hnone => ?_⟩) hs
          rw [hnone]
          rfl
        · exact hs

/-! ### A key comes to rest (R130) -/

theorem rested_moves {r : KeyRec} (h : r.phase = .releasing) : r.Moves r.rested where
  striking := by rw [h]; exact iff_of_false nofun nofun
  deferred := by rw [h]; exact iff_of_false nofun nofun
  offline := by rw [h]; exact iff_of_false nofun nofun
  timers ending _ := timersAgree_resting rfl rfl rfl rfl ending
  current _ := rfl
  pending _ hnone := hnone

theorem KeyRec.Moves.trans {a b c : KeyRec} (h : a.Moves b) (g : b.Moves c) : a.Moves c where
  striking := g.striking.trans h.striking
  deferred := g.deferred.trans h.deferred
  offline := g.offline.trans h.offline
  timers ending ha := g.timers ending (h.timers ending ha)
  current hd := (g.current (h.deferred.2 hd)).trans (h.current hd)
  pending ho hnone := g.pending (h.offline.2 ho) (h.pending ho hnone)

theorem restNotice_moves {k : Key} {s : State} (hphase : (s.key k).phase = .releasing) (j : Key) :
    (s.key j).Moves ((restNotice k s).key j) := by
  obtain ⟨hself, hother⟩ := key_restNotice k s
  by_cases hj : j = k
  · rw [hj]
    exact (rested_moves hphase).trans hself.moves
  · exact (hother j hj).moves

/-- A key that comes to rest with no strike pending, or in PAUSED. -/
theorem keysAgree_restNotice {k : Key} {s t : State} (hphase : (s.key k).phase = .releasing) (hs : s.keysAgree)
    (hslots : SameSlots (restNotice k s) t) (hkeys : ∀ j, ((restNotice k s).key j).Still (t.key j)) (hperf : t.perf = s.perf)
    (hrests : (t.key k).pending ≠ none → s.perf.state = .paused) : t.keysAgree := by
  refine keysAgree_moves hs ((restNotice_slots k s).trans hslots)
    (fun j => (restNotice_moves hphase j).trans (hkeys j).moves) (fun j hpending hresting => ?_) (by rw [hperf]; exact id)
  rw [hperf]
  by_cases hj : j = k
  · exact hrests (hj ▸ hpending)
  · have hstill := ((key_restNotice k s).2 j hj).trans (hkeys j)
    rw [hstill.phase] at hresting
    exact ((keysAgree_iff s).1 hs).2.1 j (fun hnone => hpending (hstill.pending hnone)) hresting

theorem keysAgree_keyRests (k : Key) {s : State} (hphase : (s.key k).phase = .releasing) (hs : s.keysAgree) :
    (keyRests k s).keysAgree := by
  have hperf : (restNotice k s).perf = s.perf := (Plays.restNotice k s).handsOn.perf
  unfold keyRests
  dsimp only
  split
  · next st hst =>
    split
    · next hpaused =>
      rw [hperf] at hpaused
      exact keysAgree_restNotice hphase hs (.refl _) (fun _ => .refl _) hperf fun _ => hpaused
    · have hcleared : Still (restNotice k s) (updateKey k (fun r => { r with pending := none }) (restNotice k s)) :=
        .upd k _ _ ⟨rfl, rfl, rfl, rfl, rfl, fun _ => rfl⟩
      refine keysAgree_offer (keysAgree_restNotice hphase hs hcleared.slots hcleared.keys hperf ?_) ?_ true st
      · rw [key_updateKey_self]
        exact fun h => absurd rfl h
      · rw [(hcleared.keys k).phase]
        exact (key_restNotice k s).1.phase
  · next hnone => exact keysAgree_restNotice hphase hs (.refl _) (fun _ => .refl _) hperf fun h => absurd hnone h

end Sys2Proof.Machine

namespace Sys2Proof.Machine

/-! ### The pulse end (R108, R123) -/

/-- A key at its pulse end with its slot given back. -/
def slotBack (k : Key) (s : State) : State := dropSlot k (updateKey k (fun r => { r with pulseEnd := none }) s)

theorem endPulse_eq (k : Key) (s : State) : endPulse k s = afterPulse k (arbiterUnlessPaused (slotBack k s)) := rfl

theorem key_slotBack (j k : Key) (s : State) : (slotBack k s).key j =
    if j = k then { s.key k with pulseEnd := none } else s.key j := by
  have hkeys : (slotBack k s).keys = (updateKey k (fun r => { r with pulseEnd := none }) s).keys := by
    unfold slotBack dropSlot
    split <;> rfl
  rw [key_congr hkeys, key_updateKey]

/-- What giving a slot back comes to, block by block. -/
theorem slotBack_slots {s : State} {k : Key} {b : Board} {c : Nat} (hwire : s.keyWire k = some (b, c)) :
    SameService s (slotBack k s) ∧
      (∀ d, ((slotBack k s).board d).inFlight = (s.board d).inFlight - (decide (d = b)).toNat) ∧
      (slotBack k s).sched.total = s.sched.total - 1 ∧ (slotBack k s).sched.deferral = s.sched.deferral := by
  have hwire' : (updateKey k (fun r => { r with pulseEnd := none }) s).keyWire k = some (b, c) := hwire
  have heq : slotBack k s = _ := dropSlot_of_wire hwire'
  have hboard : ∀ d, (slotBack k s).board d = (updateBoard b (fun r => { r with inFlight := r.inFlight - 1 }) s).board d :=
    fun d => by
      rw [heq]
      rfl
  have hspares : Spares s (slotBack k s) := (Spares.upd _ _ s).trans (.dropSlot _ _)
  refine ⟨⟨hspares.profile, hspares.enabled, fun d => ?_⟩, fun d => ?_, ?_, ?_⟩
  · rw [hboard, board_updateBoard]
    split
    · next h => rw [h]
    · rfl
  · rw [hboard, board_updateBoard]
    split
    · next h => rw [h, decide_eq_true rfl]; rfl
    · next h => rw [decide_eq_false h]; rfl
  · rw [heq]
    rfl
  · rw [heq]
    rfl

theorem KeysCore.slotBack {s : State} (h : KeysCore none s) {k : Key} (hphase : (s.key k).phase = .striking) :
    KeysCore (some k) (slotBack k s) := by
  have hserved : ¬s.keyServed k = false := fun hout => by
    rw [(h.offline k).2 hout] at hphase
    cases hphase
  obtain ⟨⟨b, c⟩, hwire, -⟩ := (Option.any_eq_true _ _).1 (Bool.eq_true_of_not_eq_false hserved)
  obtain ⟨hservice, hinFlight, htotal, hdeferral⟩ := slotBack_slots hwire
  have hother : ∀ j, j ≠ k → (Machine.slotBack k s).key j = s.key j := fun j hj => by rw [key_slotBack, if_neg hj]
  have hself : (Machine.slotBack k s).key k = { s.key k with pulseEnd := none } := by rw [key_slotBack, if_pos rfl]
  have hphases : ∀ j, ((Machine.slotBack k s).key j).phase = (s.key j).phase := fun j => by
    by_cases hj : j = k
    · rw [hj, hself]
    · rw [hother j hj]
  have hending : ∀ j, j ≠ k → decide (some k = some j) = decide ((none : Option Key) = some j) := fun j hj =>
    decide_eq_false fun e => hj (Option.some.inj e).symm
  obtain ⟨-, hhold, hreturn⟩ := h.timers k
  constructor
  case offline => exact fun j => by rw [hphases, hservice.keyServed, h.offline]
  case timers =>
    intro j
    by_cases hj : j = k
    · rw [hj, hself, decide_eq_true rfl]
      exact ⟨iff_of_false (fun e => e rfl) (fun e => (nomatch e.2)), hhold, hreturn⟩
    · rw [hother j hj, hending j hj]
      exact h.timers j
  case ends =>
    rintro j ⟨⟩
    rw [hself]
    exact hphase
  case ordered => rw [hdeferral]; exact h.ordered
  case listed => exact fun j => by rw [hphases, hdeferral, h.listed]
  case tagged =>
    intro e he
    rw [hdeferral] at he
    rw [hother e.key fun hj => ?_]
    · exact h.tagged e he
    · have hdeferred := (h.listed e.key).2 ⟨e, he, rfl⟩
      rw [hj, hphase] at hdeferred
      cases hdeferred
  case boards =>
    intro d
    have hcount := striking_leaves (c := fun j => s.keyOnBoard j d && !decide ((none : Option Key) = some j))
      (d := fun j => (Machine.slotBack k s).keyOnBoard j d && !decide (some k = some j))
      (fun j hj => by rw [hservice.keyOnBoard, hending j hj]) hother hphase (by simp)
    rw [keyOnBoard_of_wire hwire] at hcount
    rw [hinFlight, h.boards d]
    exact Nat.sub_eq_of_eq_add (by simpa using hcount.symm)
  case boardLimits =>
    intro d
    rw [hinFlight, hservice.boardLimit]
    exact (Nat.sub_le _ _).trans (h.boardLimits d)
  case total =>
    have hcount := striking_leaves (c := fun j => !decide ((none : Option Key) = some j))
      (d := fun j => !decide (some k = some j)) (fun j hj => by rw [hending j hj]) hother hphase (by simp)
    rw [htotal, h.total]
    exact Nat.sub_eq_of_eq_add hcount.symm
  case totalLimit =>
    rw [htotal, hservice.totalLimit]
    exact (Nat.sub_le _ _).trans h.totalLimit
  case pending =>
    intro j
    by_cases hj : j = k
    · rw [hj, hself]
      exact h.pending k
    · rw [hother j hj]
      exact h.pending j

/-- After the arbiter, the key at its pulse end leaves STRIKING. -/
theorem KeysCore.lands {k : Key} {s t : State} (h : KeysCore (some k) s) (hslots : SameSlots s t)
    (hother : ∀ j, j ≠ k → t.key j = s.key j) (hphase : (t.key k).phase = .held ∨ (t.key k).phase = .releasing)
    (htimers : (t.key k).TimersAgree false) : KeysCore none t := by
  have hbefore := h.ends k rfl
  have hafter : (t.key k).phase ≠ .striking ∧ (t.key k).phase ≠ .deferred ∧ (t.key k).phase ≠ .offline := by
    rcases hphase with e | e <;> rw [e] <;> exact ⟨nofun, nofun, nofun⟩
  have hending : ∀ j, j ≠ k → decide ((none : Option Key) = some j) = decide (some k = some j) := fun j hj =>
    (decide_eq_false fun e => hj (Option.some.inj e).symm).symm
  have hcount : ∀ c d : Key → Bool, (∀ j, d j = c j) → (t.striking fun j => d j && !decide ((none : Option Key) = some j)) =
      s.striking fun j => c j && !decide (some k = some j) := fun c d hcond => by
    refine congrArg List.length (List.filter_congr fun j _ => ?_)
    dsimp only
    by_cases hj : j = k
    · rw [hj, decide_eq_true (rfl : some k = some k), decide_eq_false hafter.1, Bool.not_true, Bool.and_false, Bool.and_false,
        Bool.false_and]
    · rw [hcond, hother j hj, hending j hj]
  constructor
  case offline =>
    intro j
    rw [hslots.keyServed, ← h.offline]
    by_cases hj : j = k
    · rw [hj, hbefore]
      exact iff_of_false hafter.2.2 nofun
    · rw [hother j hj]
  case timers =>
    intro j
    by_cases hj : j = k
    · rw [hj]
      exact htimers
    · rw [hother j hj, hending j hj]
      exact h.timers j
  case ends => exact nofun
  case ordered => rw [hslots.deferral]; exact h.ordered
  case listed =>
    intro j
    rw [hslots.deferral, ← h.listed]
    by_cases hj : j = k
    · rw [hj, hbefore]
      exact iff_of_false hafter.2.1 nofun
    · rw [hother j hj]
  case tagged =>
    intro e he
    rw [hslots.deferral] at he
    rw [hother e.key fun hj => ?_]
    · exact h.tagged e he
    · have hdeferred := (h.listed e.key).2 ⟨e, he, rfl⟩
      rw [hj, hbefore] at hdeferred
      cases hdeferred
  case boards =>
    intro b
    rw [hslots.inFlight, h.boards]
    exact (hcount _ _ fun j => by rw [hslots.keyOnBoard]).symm
  case boardLimits => exact fun b => by rw [hslots.inFlight, hslots.boardLimit]; exact h.boardLimits b
  case total =>
    have htotal := hcount (fun _ => true) (fun _ => true) fun _ => rfl
    simp only [Bool.true_and] at htotal
    rw [hslots.total, h.total, htotal]
  case totalLimit => rw [hslots.total, hslots.totalLimit]; exact h.totalLimit
  case pending =>
    intro j
    by_cases hj : j = k
    · rw [hj]
      exact fun _ => hafter.2.2
    · rw [hother j hj]
      exact h.pending j

/-- What the key becomes at its pulse end (R123). -/
theorem key_afterPulse (k : Key) (s : State) : (∀ j, j ≠ k → (afterPulse k s).key j = s.key j) ∧
    ((afterPulse k s).key k = (s.key k).releasing s k ∨
      ∃ t, (afterPulse k s).key k = { s.key k with phase := .held, holdLimit := some t }) := by
  unfold afterPulse
  split
  · exact ⟨fun j hj => by rw [key_letGo, if_neg hj], .inl (by rw [key_letGo, if_pos rfl])⟩
  · exact ⟨fun j hj => key_updateKey_ne hj _ _, .inr ⟨_, key_updateKey_self k _ _⟩⟩

theorem afterPulse_slots (k : Key) (s : State) : SameSlots s (afterPulse k s) := by
  unfold afterPulse
  split
  · exact .of_eq rfl rfl rfl
  · exact .of_eq rfl rfl rfl

theorem keysAgree_endPulse (k : Key) {s : State} (hphase : (s.key k).phase = .striking) (hs : s.keysAgree) :
    (endPulse k s).keysAgree := by
  obtain ⟨hcore, hrests, -⟩ := (keysAgree_iff s).1 hs
  have hperf : (slotBack k s).perf = s.perf := ((Plays.upd k _ s).trans (.dropSlot _ _)).handsOn.perf
  have hbackRests : (slotBack k s).pendingRestsPaused := fun j => by
    rw [key_slotBack, hperf]
    split
    · next hj => exact hj ▸ hrests j
    · exact hrests j
  obtain ⟨hserved, hservedRests, hblocked⟩ := (hcore.slotBack hphase).arbiterUnlessPaused hbackRests
  rw [endPulse_eq]
  generalize arbiterUnlessPaused (slotBack k s) = u at hserved hservedRests hblocked
  have hstate : (afterPulse k u).perf = u.perf := (Plays.afterPulse k u).handsOn.perf
  obtain ⟨hother, hself⟩ := key_afterPulse k u
  have hslots := afterPulse_slots k u
  obtain ⟨hpulse, -, hreturn⟩ := hserved.timers k
  have hstriking := hserved.ends k rfl
  rw [decide_eq_true rfl] at hpulse
  rw [hstriking] at hreturn
  have hlanded : ((afterPulse k u).key k).phase = .held ∨ ((afterPulse k u).key k).phase = .releasing := by
    rcases hself with e | ⟨t, e⟩ <;> rw [e]
    · exact .inr rfl
    · exact .inl rfl
  have htimers : ((afterPulse k u).key k).TimersAgree false := by
    rcases hself with e | ⟨t, e⟩ <;> rw [e]
    · exact timersAgree_releasing rfl rfl rfl (Option.some_ne_none _) false
    · exact ⟨iff_of_false (fun e => (nomatch (hpulse.1 e).2)) (fun e => (nomatch e.1)), iff_of_true nofun rfl,
        iff_of_false (fun e => (nomatch hreturn.1 e)) nofun⟩
  refine (keysAgree_iff _).2 ⟨hserved.lands hslots hother hlanded htimers, fun j => ?_,
    hslots.load.listBlocked (by rw [hstate]; exact id) hblocked⟩
  rw [hstate]
  by_cases hj : j = k
  · rw [hj]
    rcases hlanded with e | e <;> rw [e] <;> exact fun _ => nofun
  · rw [hother j hj]
    exact hservedRests j

end Sys2Proof.Machine

namespace Sys2Proof.Machine

/-! ### The cut, the pause and the resume -/

/-- No key is STRIKING, so none is counted. -/
theorem striking_none {s : State} (h : ∀ k, (s.key k).phase ≠ .striking) (c : Key → Bool) : s.striking c = 0 := by
  unfold State.striking
  rw [List.length_eq_zero_iff, List.filter_eq_nil_iff]
  intro k _
  rw [decide_eq_false (h k), Bool.and_false]
  nofun

/-- Where no key is STRIKING or DEFERRED and nothing is pending or in flight. -/
theorem KeysCore.of_quiet {s : State} (hoffline : ∀ k, (s.key k).phase = .offline ↔ s.keyServed k = false)
    (htimers : ∀ k, (s.key k).TimersAgree false)
    (hphases : ∀ k, (s.key k).phase ≠ .striking ∧ (s.key k).phase ≠ .deferred) (hdeferral : s.sched.deferral = [])
    (hinFlight : ∀ b, (s.board b).inFlight = 0) (htotal : s.sched.total = 0) (hpending : ∀ k, (s.key k).pending = none) :
    KeysCore none s where
  offline := hoffline
  timers := htimers
  ends := nofun
  ordered := by rw [hdeferral]; exact .nil
  listed k := by
    rw [hdeferral]
    exact iff_of_false (hphases k).2 nofun
  tagged := by rw [hdeferral]; exact nofun
  boards b := by rw [hinFlight, striking_none fun k => (hphases k).1]
  boardLimits b := by rw [hinFlight]; exact Nat.zero_le _
  total := by rw [htotal, striking_none fun k => (hphases k).1]
  totalLimit := by rw [htotal]; exact Nat.zero_le _
  pending k h := absurd (hpending k) h

theorem keysAgree_of_quiet {s : State} (hoffline : ∀ k, (s.key k).phase = .offline ↔ s.keyServed k = false)
    (htimers : ∀ k, (s.key k).TimersAgree false)
    (hphases : ∀ k, (s.key k).phase ≠ .striking ∧ (s.key k).phase ≠ .deferred) (hdeferral : s.sched.deferral = [])
    (hinFlight : ∀ b, (s.board b).inFlight = 0) (htotal : s.sched.total = 0) (hpending : ∀ k, (s.key k).pending = none) :
    s.keysAgree :=
  (keysAgree_iff s).2 ⟨.of_quiet hoffline htimers hphases hdeferral hinFlight htotal hpending,
    fun k h => absurd (hpending k) h, fun _ e he => by rw [hdeferral] at he; cases he⟩

/-- A key that is neither STRIKING nor DEFERRED stays in its phase; the others rest or are let go (R132). -/
theorem cut_rests {r : KeyRec} (h : r.TimersAgree false) (s : State) (k : Key) : (r.cut s k).TimersAgree false ∧
    ((r.cut s k).phase ≠ .striking ∧ (r.cut s k).phase ≠ .deferred) ∧ (r.cut s k).pending = none ∧
      ((r.cut s k).phase = .offline ↔ r.phase = .offline) := by
  obtain ⟨phase, _⟩ := r
  cases phase with
  | resting => exact ⟨h, ⟨nofun, nofun⟩, rfl, .rfl⟩
  | releasing => exact ⟨h, ⟨nofun, nofun⟩, rfl, .rfl⟩
  | offline => exact ⟨h, ⟨nofun, nofun⟩, rfl, .rfl⟩
  | deferred => exact ⟨timersAgree_resting rfl rfl rfl rfl false, ⟨nofun, nofun⟩, rfl, iff_of_false nofun nofun⟩
  | striking => exact ⟨timersAgree_releasing rfl rfl rfl (Option.some_ne_none _) false, ⟨nofun, nofun⟩, rfl, iff_of_false nofun nofun⟩
  | held => exact ⟨timersAgree_releasing rfl rfl rfl (Option.some_ne_none _) false, ⟨nofun, nofun⟩, rfl, iff_of_false nofun nofun⟩

theorem cut_board (b : Board) (s : State) : (cut s).board b = { s.board b with inFlight := 0 } := by
  have hport : (cut s).port = { s.port with boards := Vector.ofFn fun b => { s.board b with inFlight := 0 } } := by
    rw [cut_spec]
  have hboard := congrArg (fun q : ActionPort => q.boards[b]) hport
  rw [State.board, hboard]
  simp

theorem keysAgree_stopAfterCut (reason : StopReason) {s : State} (hs : s.keysAgree) :
    (stopWith reason (cut s)).keysAgree := by
  obtain ⟨hcore, -, -⟩ := (keysAgree_iff s).1 hs
  have hkey : ∀ k, (stopWith reason (cut s)).key k = (s.key k).cut s k := fun k => by
    have hkeys : (cut s).keys = Vector.ofFn fun k => KeyRec.cut s k (s.key k) := by rw [cut_spec]
    have hcut : (cut s).key k = (s.key k).cut s k := by
      unfold State.key
      rw [hkeys]
      simp [State.key]
    exact hcut
  have hsched : (stopWith reason (cut s)).sched = { queue := [], owed := 0, deferral := [], total := 0 } := (cut_empties s).1
  have hprofile : (stopWith reason (cut s)).port.profile = s.port.profile := by
    unfold stopWith
    rw [cut_spec]
  have hboard : ∀ b, (stopWith reason (cut s)).board b = { s.board b with inFlight := 0 } := fun b => cut_board b s
  have hservice : SameService s (stopWith reason (cut s)) := by
    refine ⟨hprofile, fun b => ?_, fun b => ?_⟩
    · unfold State.boardEnabled
      rw [hboard]
    · rw [hboard]
  have hrests := fun k => cut_rests (hcore.timers k) s k
  refine keysAgree_of_quiet (fun k => ?_) (fun k => ?_) (fun k => ?_) ?_ (fun b => by rw [hboard]) ?_ fun k => ?_
  · rw [hkey, hservice.keyServed, (hrests k).2.2.2, hcore.offline]
  · rw [hkey]
    exact (hrests k).1
  · rw [hkey]
    exact (hrests k).2.1
  · rw [hsched]
  · rw [hsched]
  · rw [hkey]
    exact (hrests k).2.2.1

theorem paused_moves (s : State) (k : Key) (r : KeyRec) : r.Moves (r.paused s k) := by
  unfold KeyRec.paused
  split
  · exact ⟨⟨.rfl, .rfl, fun _ h => h, fun _ => rfl⟩, .rfl, fun _ h => h⟩
  · next hphase => exact releasing_moves hphase s k
  all_goals exact (KeyRec.Still.refl _).moves

theorem keysAgree_enterPaused {s : State} (hs : s.keysAgree) : (enterPaused s).keysAgree := by
  have hstate : (enterPaused s).perf.state = .paused := by rw [enterPaused_spec]
  have hkey : ∀ k, (enterPaused s).key k = (s.key k).paused s k := fun k => by
    have hkeys : (enterPaused s).keys = Vector.ofFn fun k => KeyRec.paused s k (s.key k) := by rw [enterPaused_spec]
    unfold State.key
    rw [hkeys]
    simp [State.key]
  refine keysAgree_moves hs (.of_eq ?_ ?_ ?_) (fun k => ?_) (fun _ _ _ => hstate) fun _ => hstate
  · rw [enterPaused_spec]
  · rw [enterPaused_spec]
  · rw [enterPaused_spec]
  · rw [hkey]
    exact paused_moves s k _

theorem keysAgree_changePedals (f : PedalRec → PedalRec) {s : State} (hs : s.keysAgree) : (changePedals f s).keysAgree := by
  rw [changePedals_eq]
  exact keysAgree_of_keys hs (.of_eq rfl rfl rfl) (fun _ => .refl _) id

/-- A pedal's record is no matter of the keys. -/
theorem keysAgree_setPedal (p : Pedal) (r : PedalRec) (cmds : List DriveCmd) {s : State} (hs : s.keysAgree) :
    (setPedal p r (sendAll cmds s)).keysAgree := by
  refine keysAgree_of_keys hs (.of_eq (setPedal_port _ _ _) (by rw [setPedal_sched]; rfl) (by rw [setPedal_sched]; rfl))
    (fun k => ?_) (by rw [setPedal_perf]; exact id)
  rw [key_congr (setPedal_keys _ _ _)]
  exact .refl _

theorem keysAgree_changePedal (p : Pedal) (f : PedalRec → PedalRec) {s : State} (hs : s.keysAgree) :
    (changePedal p f s).keysAgree := by
  rw [changePedal_eq]
  exact keysAgree_setPedal p _ _ hs

/-- The pending strikes of RESTING keys join the Deferral List, and none is left (R15). -/
theorem KeysCore.joinPending {s : State} (h : KeysCore none s) :
    KeysCore none (joinPending s) ∧ (joinPending s).noneRestsPending := by
  refine ⟨?_, fun k => ?_⟩
  · rw [joinPending_eq]
    refine foldl_keeps (P := KeysCore none) _ (fun u k hu => ?_) _ h
    unfold joinStep
    split
    · next st hphase _ =>
      refine (hu.clearPending k).joinDeferral ?_ st
      rw [key_updateKey_self]
      exact hphase
    · exact hu
  · have hkeys : (Machine.joinPending s).keys = Vector.ofFn s.joined := by rw [joinPending_spec]
    have hkey : (Machine.joinPending s).key k = s.joined k := by
      rw [State.key, hkeys]
      simp
    rw [hkey]
    unfold State.joined State.joins
    split
    · exact fun _ => nofun
    · next hnone =>
      intro hpending hphase
      rw [if_pos hphase, Option.map_eq_none_iff] at hnone
      exact hpending hnone

theorem keysAgree_resumePlaying {s : State} (hs : s.keysAgree) : (resumePlaying s).keysAgree := by
  obtain ⟨hcore, -, -⟩ := (keysAgree_iff s).1 hs
  have hslots : SameSlots s s.resumes := by
    rw [resumes_eq]
    exact .of_eq (raiseIf_port _ _ _) (by rw [raiseIf_sched]) (by rw [raiseIf_sched])
  have hkeys : ∀ k, s.resumes.key k = s.key k := fun k => key_congr (s := s) (by rw [resumes_eq, raiseIf_keys])
  have hresumed : KeysCore none s.resumes := hcore.moves hslots fun k => by
    rw [hkeys]
    exact (KeyRec.Still.refl _).moves
  obtain ⟨hjoined, hrests⟩ := hresumed.joinPending
  obtain ⟨hserved, hrests'⟩ := hjoined.arbitrate ((joinPending s.resumes).sched.deferral.length + 88) hrests
  have hagree : (runArbiter (joinPending s.resumes)).keysAgree :=
    (keysAgree_iff _).2 ⟨hserved, hrests'.restsPaused, listBlocked_runArbiter _⟩
  exact keysAgree_still ((SameTargets.withPerf _ _).still .rfl) hagree

end Sys2Proof.Machine

namespace Sys2Proof.Machine

/-! ### The profile (R140, R141) -/

/-- An OFFLINE key that comes into service rests (R135). -/
theorem wakes_keepsPlace {r : KeyRec} (h : r.phase = .offline) : r.KeepsPlace { r with phase := .resting } where
  striking := by rw [h]; exact iff_of_false nofun nofun
  deferred := by rw [h]; exact iff_of_false nofun nofun
  timers _ hr := by
    obtain ⟨hpulse, hhold, hreturn⟩ := hr
    rw [h] at hpulse hhold hreturn
    exact ⟨iff_of_false (fun e => (nomatch (hpulse.1 e).1)) (fun e => (nomatch e.1)),
      iff_of_false (fun e => (nomatch hhold.1 e)) nofun, iff_of_false (fun e => (nomatch hreturn.1 e)) nofun⟩
  current _ := rfl

/-- Without a profile every key is OFFLINE, and nothing is under way. -/
theorem noProfile_quiet {s : State} (h : KeysCore none s) (hnone : s.port.profile = none) :
    (∀ k, (s.key k).phase = .offline) ∧ s.sched.deferral = [] ∧ (∀ b, (s.board b).inFlight = 0) ∧ s.sched.total = 0 ∧
      ∀ k, (s.key k).pending = none := by
  have hoffline : ∀ k, (s.key k).phase = .offline := fun k => by
    rw [h.offline]
    unfold State.keyServed State.keyWire
    rw [hnone]
    rfl
  have hstriking := striking_none (s := s) fun k => by rw [hoffline]; nofun
  refine ⟨hoffline, List.eq_nil_iff_forall_not_mem.2 fun e he => ?_, fun b => (h.boards b).trans (hstriking _),
    h.total.trans (hstriking _), fun k => not_not.1 fun hpending => h.pending k hpending (hoffline k)⟩
  have hdeferred := (h.listed e.key).2 ⟨e, he, rfl⟩
  rw [hoffline] at hdeferred
  cases hdeferred

theorem keysAgree_writeProfile {r : RawProfile} {p : Profile} (hpasses : profilePasses r p) {s : State}
    (hnone : s.port.profile = none) (hs : s.keysAgree) : (writeProfile r p s).keysAgree := by
  obtain ⟨hcore, -, -⟩ := (keysAgree_iff s).1 hs
  obtain ⟨hoffline, hdeferral, hinFlight, htotal, hpending⟩ := noProfile_quiet hcore hnone
  have hwritten : ∀ b, (profileWritten r p s).board b = (s.board b).written r.boards[b] := fun b => by
    simp [profileWritten, State.board]
  rw [writeProfile_changes hpasses]
  refine keysAgree_changePedals _ ?_
  have hport : (mapKeys (profileRests p) (profileWritten r p s)).port = (profileWritten r p s).port := mapKeys_port _ _
  have hsched : (mapKeys (profileRests p) (profileWritten r p s)).sched = s.sched := by
    rw [mapKeys_sched]
    rfl
  have hservice := SameService.of_port hport
  have hboard : ∀ b, ((mapKeys (profileRests p) (profileWritten r p s)).board b).inFlight = 0 := fun b => by
    have hsame := congrArg (fun q : ActionPort => q.boards[b].inFlight) hport
    refine hsame.trans ((congrArg BoardRec.inFlight (hwritten b)).trans (hinFlight b))
  have hkey : ∀ k, (mapKeys (profileRests p) (profileWritten r p s)).key k =
      if p.keys[k].board ≠ none then { s.key k with phase := .resting } else s.key k := fun k => key_mapKeys k _ _
  have hserved : ∀ k, (profileWritten r p s).keyServed k = decide (p.keys[k].board ≠ none) := profileWritten_serves hpasses s
  refine keysAgree_of_quiet (fun k => ?_) (fun k => ?_) (fun k => ?_) (by rw [hsched, hdeferral]) hboard (by rw [hsched, htotal])
    fun k => ?_
  · rw [hservice.keyServed, hserved, hkey]
    split
    · next hon =>
      rw [decide_eq_true hon]
      exact iff_of_false nofun nofun
    · next hoff =>
      rw [decide_eq_false hoff]
      exact iff_of_true (hoffline k) rfl
  · rw [hkey]
    split
    · exact wakes_keepsPlace (hoffline k) |>.timers false (hcore.timers k)
    · exact hcore.timers k
  · rw [hkey]
    split
    · exact ⟨nofun, nofun⟩
    · rw [hoffline]
      exact ⟨nofun, nofun⟩
  · rw [hkey]
    split <;> exact hpending k

theorem keysAgree_takeProfile (r : RawProfile) {s : State} (hnone : s.port.profile = none) (hs : s.keysAgree) :
    (takeProfile r s).1.keysAgree := by
  unfold takeProfile
  split
  · next p hp => exact keysAgree_writeProfile ((profileOf?_eq_some_iff r p).1 hp).2 hnone hs
  · exact hs

/-! ### The boards (R134, R135, R146, R148) -/

/-- The keys of a board that changes its service change theirs; the others do not. -/
theorem keyServed_board {s t : State} {b : Board} (hprofile : t.port.profile = s.port.profile)
    (hothers : ∀ c, c ≠ b → t.boardEnabled c = s.boardEnabled c) (k : Key) :
    t.keyServed k = if s.keyOnBoard k b then t.boardEnabled b else s.keyServed k := by
  unfold State.keyServed State.keyOnBoard
  rw [keyWire_of_profile hprofile]
  cases s.keyWire k with
  | none => rfl
  | some w =>
    simp only [Option.any_some, beq_iff_eq]
    split
    · next h => rw [h]
    · next h => exact hothers _ h

theorem key_boardOn (b : Board) (s : State) (k : Key) : (boardOn b s).key k =
    if s.keyOnBoard k b = true ∧ (s.key k).phase = .offline then { s.key k with phase := .resting } else s.key k := by
  have hkeys : (boardOn b s).keys = Vector.ofFn fun k =>
      if s.keyOnBoard k b = true ∧ (s.key k).phase = .offline then { s.key k with phase := .resting } else s.key k := by
    simp only [boardOn]
  rw [State.key, hkeys]
  simp

theorem boardOn_board (b c : Board) (s : State) : ((boardOn b s).board c).params = (s.board c).params ∧
    ((boardOn b s).board c).inFlight = (s.board c).inFlight := by
  have hboard : (boardOn b s).board c = if c = b then { s.board b with service := .enabled, faultReason := none } else s.board c :=
    (congrArg (fun q : ActionPort => q.boards[c]) (boardOn_port b s)).trans (board_updateBoard c b _ s)
  rw [hboard]
  split
  · next h => rw [h]; exact ⟨rfl, rfl⟩
  · exact ⟨rfl, rfl⟩

/-- A board comes back into service: its OFFLINE keys rest, with nothing pending. -/
theorem keysAgree_boardOn (b : Board) {s : State} (hs : s.keysAgree) : (boardOn b s).keysAgree := by
  obtain ⟨hcore, hrests, hblocked⟩ := (keysAgree_iff s).1 hs
  have hsched : (boardOn b s).sched = s.sched := by simp only [boardOn]
  have hperf : (boardOn b s).perf = s.perf := by simp only [boardOn]
  have hload : SameLoad s (boardOn b s) := ⟨(boardOn_frame b s).1, fun c => (boardOn_board b c s).1,
    fun c => (boardOn_board b c s).2, by rw [hsched], by rw [hsched]⟩
  have hserved : ∀ k, (boardOn b s).keyServed k = (s.keyOnBoard k b || s.keyServed k) := fun k => by
    rw [keyServed_board (b := b) (boardOn_frame b s).1 (fun c hc => by rw [boardOn_enabled, decide_eq_false hc, Bool.false_or]) k,
      boardOn_enabled, decide_eq_true rfl]
    cases s.keyOnBoard k b <;> rfl
  have hplaces : ∀ k, (s.key k).KeepsPlace ((boardOn b s).key k) := fun k => by
    rw [key_boardOn]
    split
    · next hwakes => exact wakes_keepsPlace hwakes.2
    · exact (KeyRec.Still.refl _).moves.toKeepsPlace
  have hpending : ∀ k, ((boardOn b s).key k).pending = (s.key k).pending := fun k => by
    rw [key_boardOn]
    split <;> rfl
  refine (keysAgree_iff _).2 ⟨hcore.carried hload hplaces (fun k => ?_) (fun k hk => ?_), fun k hk hphase => ?_,
    hload.listBlocked (by rw [hperf]; exact id) hblocked⟩
  · rw [hserved, key_boardOn, Bool.or_eq_false_iff, ← hcore.offline]
    split
    · next hwakes =>
      rw [hwakes.1]
      exact iff_of_false nofun fun e => (nomatch e.1)
    · next hsame =>
      refine ⟨fun hoffline => ⟨Bool.eq_false_iff.2 fun hon => hsame ⟨hon, hoffline⟩, hoffline⟩, fun h => h.2⟩
  · rw [hpending] at hk
    rw [key_boardOn]
    split
    · exact nofun
    · exact hcore.pending k hk
  · rw [hpending] at hk
    rw [hperf]
    refine hrests k hk ?_
    rw [key_boardOn] at hphase
    split at hphase
    · next hwakes => exact absurd hwakes.2 (hcore.pending k hk)
    · exact hphase

theorem keysAgree_enableBoard (b : Board) {s : State} (hs : s.keysAgree) : (enableBoard b s).keysAgree := by
  have hon := keysAgree_boardOn b hs
  rw [enableBoard_eq]
  generalize boardOn b s = u at hon
  exact keysAgree_of_keys hon (.of_eq rfl rfl rfl) (fun _ => .refl _) id

end Sys2Proof.Machine

namespace Sys2Proof.Machine

/-! ### A board goes out of service (R134, R146) -/

section
variable (b : Board) (reason : DisableReason) (fault : Option FaultReason) (s begun : State)

theorem key_boardOut (k : Key) : (boardOut b reason fault s begun).key k =
    if s.onLine b k then (s.key k).disabled else s.key k := by
  have hkeys : (boardOut b reason fault s begun).keys =
      Vector.ofFn fun k => if s.onLine b k then (s.key k).disabled else s.key k := by simp only [boardOut]
  rw [State.key, hkeys]
  simp

theorem boardOut_sched : (boardOut b reason fault s begun).sched = { s.sched with
    deferral := s.sched.deferral.filter fun e => !s.onLine b e.key
    total := s.sched.total - (s.board b).inFlight } := by
  simp only [boardOut]

theorem boardOut_perf (h : begun.perf = s.perf) : (boardOut b reason fault s begun).perf = s.perf := by
  rw [← h]
  simp only [boardOut]
  rfl

theorem boardOut_profile : (boardOut b reason fault s begun).port.profile = s.port.profile := by
  rw [boardOut_port]
  rfl

theorem boardOut_keyServed (k : Key) : (boardOut b reason fault s begun).keyServed k = (!s.keyOnBoard k b && s.keyServed k) := by
  have henabled := fun c => boardOut_enabled b c reason fault s begun
  rw [keyServed_board (b := b) (boardOut_profile b reason fault s begun)
    (fun c hc => by rw [henabled, decide_eq_false hc, Bool.not_false, Bool.true_and]) k, henabled, decide_eq_true rfl]
  cases s.keyOnBoard k b <;> rfl

theorem onLine_iff (k : Key) : s.onLine b k = true ↔ s.keyOnBoard k b = true ∧ (s.key k).phase ≠ .offline := by
  unfold State.onLine
  rw [Bool.and_eq_true, bne_iff_ne]

theorem boardOut_striking_iff (k : Key) : decide (((boardOut b reason fault s begun).key k).phase = .striking) =
    (!s.keyOnBoard k b && decide ((s.key k).phase = .striking)) := by
  rw [key_boardOut]
  by_cases hk : s.onLine b k = true
  · rw [if_pos hk, ((onLine_iff b s k).1 hk).1]
    rfl
  · rw [if_neg hk]
    cases hon : s.keyOnBoard k b with
    | false => rfl
    | true => exact decide_eq_false fun e => hk ((onLine_iff b s k).2 ⟨hon, by rw [e]; nofun⟩)

theorem boardOut_striking (c : Key → Bool) : (boardOut b reason fault s begun).striking c =
    s.striking fun k => c k && !s.keyOnBoard k b := by
  refine congrArg List.length (List.filter_congr fun k _ => ?_)
  rw [boardOut_striking_iff]
  exact (Bool.and_assoc _ _ _).symm
end

theorem keyOnBoard_unique {s : State} {k : Key} {b c : Board} (hne : c ≠ b) (h : s.keyOnBoard k c = true) :
    s.keyOnBoard k b = false := by
  obtain ⟨channel, hwire⟩ := (keyOnBoard_iff s k c).1 h
  rw [keyOnBoard_of_wire hwire, decide_eq_false hne.symm]

/-- A board out of service leaves the other boards their STRIKING keys. -/
theorem boardOut_inFlight {s : State} (hboards : ∀ c, (s.board c).inFlight = s.striking (s.keyOnBoard · c)) (b c : Board)
    (reason : DisableReason) (fault : Option FaultReason) (begun : State) :
    ((boardOut b reason fault s begun).board c).inFlight = s.striking fun k => s.keyOnBoard k c && !s.keyOnBoard k b := by
  rw [boardOut_board]
  split
  · next hc =>
    have hnone : (fun k => s.keyOnBoard k c && !s.keyOnBoard k b) = fun _ => false := by
      rw [hc]
      exact funext fun k => Bool.and_not_self _
    rw [hnone]
    simp [State.striking]
  · next hc =>
    rw [hboards]
    refine striking_congr (fun k => ?_) fun _ => .rfl
    cases hon : s.keyOnBoard k c with
    | false => rfl
    | true => rw [keyOnBoard_unique hc hon]; rfl

/-- The STRIKING keys are those of a board and the others. -/
theorem striking_split (s : State) (c : Key → Bool) :
    s.striking (fun _ => true) = s.striking c + s.striking fun k => !c k := by
  have hsplit := List.length_eq_length_filter_add (l := allKeys.filter fun k => decide ((s.key k).phase = .striking)) c
  rw [List.filter_filter, List.filter_filter] at hsplit
  unfold State.striking
  simp only [Bool.true_and]
  exact hsplit

theorem KeysCore.boardOut {s : State} (h : KeysCore none s) (b : Board) (reason : DisableReason)
    (fault : Option FaultReason) (begun : State) : KeysCore none (boardOut b reason fault s begun) := by
  have hkey := key_boardOut b reason fault s begun
  have hsched := boardOut_sched b reason fault s begun
  have hprofile := boardOut_profile b reason fault s begun
  have hout : ∀ k, s.onLine b k = true → (Machine.boardOut b reason fault s begun).key k = (s.key k).disabled :=
    fun k hk => by rw [hkey, if_pos hk]
  have hkept : ∀ k, ¬s.onLine b k = true → (Machine.boardOut b reason fault s begun).key k = s.key k :=
    fun k hk => by rw [hkey, if_neg hk]
  have hmem : ∀ e, e ∈ (Machine.boardOut b reason fault s begun).sched.deferral ↔
      e ∈ s.sched.deferral ∧ ¬s.onLine b e.key = true := fun e => by
    rw [hsched, List.mem_filter, Bool.not_eq_true', Bool.not_eq_true]
  have hending : ∀ k : Key, decide ((none : Option Key) = some k) = false := fun _ => rfl
  have hboards := h.boards
  have htotal := h.total
  simp only [hending, Bool.not_false, Bool.and_true] at hboards htotal
  constructor
  case offline =>
    intro k
    rw [boardOut_keyServed]
    by_cases hk : s.onLine b k = true
    · rw [hout k hk, ((onLine_iff b s k).1 hk).1]
      exact iff_of_true rfl rfl
    · rw [hkept k hk, h.offline]
      cases hon : s.keyOnBoard k b with
      | false => rfl
      | true => exact iff_of_true ((h.offline k).1 (not_not.1 fun hne => hk ((onLine_iff b s k).2 ⟨hon, hne⟩))) rfl
  case timers =>
    intro k
    by_cases hk : s.onLine b k = true
    · rw [hout k hk]
      exact ⟨iff_of_false (fun e => e rfl) (fun e => (nomatch e.1)), iff_of_false (fun e => e rfl) nofun,
        iff_of_false (fun e => e rfl) nofun⟩
    · rw [hkept k hk]
      exact h.timers k
  case ends => exact nofun
  case ordered =>
    rw [hsched]
    exact List.Pairwise.filter _ h.ordered
  case listed =>
    intro k
    by_cases hk : s.onLine b k = true
    · rw [hout k hk]
      exact iff_of_false nofun fun ⟨e, he, hek⟩ => ((hmem e).1 he).2 (hek ▸ hk)
    · rw [hkept k hk, h.listed k]
      refine exists_congr fun e => ?_
      rw [hmem]
      exact ⟨fun ⟨he, hek⟩ => ⟨⟨he, hek ▸ hk⟩, hek⟩, fun ⟨he, hek⟩ => ⟨he.1, hek⟩⟩
  case tagged =>
    intro e he
    obtain ⟨he, hk⟩ := (hmem e).1 he
    rw [hkept _ hk]
    exact h.tagged e he
  case boards =>
    intro c
    simp only [hending, Bool.not_false, Bool.and_true]
    rw [boardOut_inFlight hboards, boardOut_striking]
    exact striking_congr (fun k => by rw [keyOnBoard_of_profile hprofile]) fun _ => .rfl
  case boardLimits =>
    intro c
    have hparams : ((Machine.boardOut b reason fault s begun).board c).params = (s.board c).params := by
      rw [boardOut_board]
      split
      · next hc => rw [hc]
      · rfl
    rw [boardLimit_congr hparams, boardOut_board]
    split
    · exact Nat.zero_le _
    · exact h.boardLimits c
  case total =>
    have hsplit := striking_split s (s.keyOnBoard · b)
    simp only [hending, Bool.not_false]
    rw [hsched, boardOut_striking, htotal, hboards b, hsplit]
    simp only [Bool.true_and]
    omega
  case totalLimit =>
    rw [totalLimit_congr hprofile, hsched]
    exact (Nat.sub_le _ _).trans h.totalLimit
  case pending =>
    intro k
    by_cases hk : s.onLine b k = true
    · rw [hout k hk]
      exact fun e => absurd rfl e
    · rw [hkept k hk]
      exact h.pending k

theorem keysAgree_disableBoard (b : Board) (reason : DisableReason) (fault : Option FaultReason) {s : State}
    (hs : s.keysAgree) : (disableBoard b reason fault s).keysAgree := by
  obtain ⟨hcore, hrests, -⟩ := (keysAgree_iff s).1 hs
  have hperf := boardOut_perf b reason fault s (endRemovedProbes b s) (endRemovedProbes_frame b s).2.2.2
  have houtRests : (boardOut b reason fault s (endRemovedProbes b s)).pendingRestsPaused := fun k => by
    rw [key_boardOut, hperf]
    split
    · exact fun e => absurd rfl e
    · exact hrests k
  have hserved := (hcore.boardOut b reason fault (endRemovedProbes b s)).arbiterUnlessPaused houtRests
  have hdisabled : disableBoard b reason fault s =
      arbiterUnlessPaused (boardOut b reason fault s (endRemovedProbes b s)) := by
    rw [disableBoard_eq]
    unfold arbiterUnlessPaused
    rw [hperf]
  rw [hdisabled]
  exact (keysAgree_iff _).2 hserved

/-! ### Every step -/

theorem keysAgree_agreement : Agreement State.keysAgree where
  still h hs := keysAgree_still h hs
  powerOn _ := keysAgree_of_keys (s := State.reset) keysAgree_reset (.of_eq rfl rfl rfl) (fun _ => .refl _) id
  fullReset _ := keysAgree_of_keys (s := State.reset) keysAgree_reset (.of_eq rfl rfl rfl) (fun _ => .refl _) id
  strikeReaches k st _ hs := keysAgree_strikeReaches k st hs
  releaseReaches k tag _ hs := keysAgree_releaseReaches k tag hs
  changePedal p f _ _ hs := keysAgree_changePedal p f hs
  enterPaused hs := keysAgree_enterPaused hs
  stopAfterCut reason _ hs := keysAgree_stopAfterCut reason hs
  resumePlaying hs := keysAgree_resumePlaying hs
  takeProfile r _ hnone hs := keysAgree_takeProfile r hnone hs
  endEngage p s _ hs := by
    rw [endEngage_eq]
    split
    · exact keysAgree_setPedal p _ _ hs
    · exact keysAgree_setPedal p _ _ hs
  enableBoard b _ hs := keysAgree_enableBoard b hs
  disableBoard b reason fault _ hs := keysAgree_disableBoard b reason fault hs
  endPulse k _ hphase hs := keysAgree_endPulse k hphase hs
  letGo k _ hphase hs := keysAgree_letGo k hphase hs
  keyRests k _ hphase hs := keysAgree_keyRests k hphase hs

/-- Settles O59: each of the two agreements is kept by the rules of keys, pedals and boards, and by every rule that follows
from them. -/
theorem everyStepKeepsKeysAndPedalsInAgreement : Obligations.EveryStepKeepsKeysAndPedalsInAgreement := by
  unfold Obligations.EveryStepKeepsKeysAndPedalsInAgreement
  intro s t hstep
  exact ⟨fun hs => step_keeps keysAgree_agreement.kept hs hstep, fun hs => step_keeps pedalsAgree_agreement.kept hs hstep⟩

end Sys2Proof.Machine
